-- ==== Sys2Proof/Word.lean ====
section
/-! DEFINITION. The word and byte types of the block (00_scope R2, R8: XLEN = 64, bit 0 least significant). -/

namespace Sys2Proof

/-- A 64-bit value of the block: XLEN = 64 (00_scope R2, R6). -/
abbrev Word := BitVec 64

/-- One byte of the address space (20_memory R60). -/
abbrev Byte := BitVec 8

end Sys2Proof
end

