-- ==== Sys2Proof/Config.lean ====
section
/-! DEFINITION. What an instance fixes (the OPEN parameters of 00_scope R6) and the free values the spec leaves open.
The numbers the spec states (TICK, SKIP and the like) stand in Machine/Parameters.lean. -/

namespace Sys2Proof

/-- The twelve dispatch classes (30_encoding R104), in the order of their codes. -/
inductive TrapClass where
  | swi | timer | ext | asyncOther
  | illegal | ecallU | ecallS | ecallM
  | ipf | lpf | spf | syncOther
  deriving DecidableEq, Repr, Inhabited

/-- The access sizes of the bus port: 1, 2, 4 or 8 bytes (20_memory R60). -/
inductive Size where
  | b1 | b2 | b4 | b8
  deriving DecidableEq, Repr, Inhabited

/-- The OPEN parameters of an instance (00_scope R6). They are fixed when the instance is built (R7);
the model holds them in `State.cfg`, so that every statement holds for every value of them (log 4). -/
structure Params where
  uart_base     : Word
  mtime_addr    : Word
  mtimecmp_addr : Word
  halt_addr     : Word
  halt_value    : Word
  halt_width    : Size
  rx_ready_mask : Byte
  deriving DecidableEq, Repr, Inhabited

/-- `DiagBytes(class, epc, tval, cause, hart)`: the text of a recoverable trap's message, any finite list of
bytes (44_diag_and_halt R213). FREE VALUE: no body; its first argument is the draw counter (log 7). -/
opaque Config.diagBytes : Nat → TrapClass → Word → Word → Word → Word → List Byte

/-- `PanicBytes(class, epc, tval, cause, hart)`: the panic record of a fatal trap, any finite list of bytes
(44_diag_and_halt R213). FREE VALUE (log 7). -/
opaque Config.panicBytes : Nat → TrapClass → Word → Word → Word → Word → List Byte

/-- The registers a RESET event leaves unspecified (10_state R50, 70_reset R280): draw counter, then which
register. FREE VALUE (log 6). -/
opaque Config.resetWord : Nat → Nat → Word

/-- `is_async_q` after a RESET event (10_state R50). FREE VALUE (log 6). -/
opaque Config.resetBit : Nat → Bool

/-- `cnum_q` after a RESET event (10_state R50). FREE VALUE (log 6). -/
opaque Config.resetCnum : Nat → BitVec 12

/-- `class_q` after a RESET event (10_state R50). FREE VALUE (log 6). -/
opaque Config.resetClass : Nat → TrapClass

/-- `resume_pc_o` while the block is not in RESUME (10_state R43). FREE VALUE (log 8). -/
opaque Config.resumePcOther : Nat → Word

/-- `acc_err_o` while no answer stands, `acc_done_o = 0`: R193 and R196 of 43_frame_accessor give it only with an
answer, and 10_state R48 gives it no idle value. FREE VALUE (log 8). -/
opaque Config.accErrOther : Nat → Bool

/-- `acc_rdata_o` when the accessor gives no data (43_frame_accessor R196). FREE VALUE (log 8). -/
opaque Config.accRdataOther : Nat → Word

end Sys2Proof
end

