-- ==== Sys2Proof/Syntax.lean ====
section
/-! DEFINITION. The operations of the block, one constructor per row of spec/opcode_table.json (30_encoding R111, R112). -/

namespace Sys2Proof

/-- The 17 operations. A cause operation carries the bits of its cause word that its row leaves free:
`upper` is bits 62:12 (latched, never read: 30_encoding R90, R91), `n` the cause number of the two OTHER rows.
An accessor operation carries the element index `off[7:3]` where it has one. -/
inductive Instr where
  | swi (upper : BitVec 51)
  | timer (upper : BitVec 51)
  | ext (upper : BitVec 51)
  | asyncOther (upper : BitVec 51) (n : BitVec 12)
  | illegal (upper : BitVec 51)
  | ecallU (upper : BitVec 51)
  | ecallS (upper : BitVec 51)
  | ecallM (upper : BitVec 51)
  | ipf (upper : BitVec 51)
  | lpf (upper : BitVec 51)
  | spf (upper : BitVec 51)
  | syncOther (upper : BitVec 51) (n : BitVec 12)
  | frameRegs (index : BitVec 5)
  | frameFregs (index : BitVec 5)
  | frameSatp
  | frameTrapStack
  | frameHartid
  deriving DecidableEq, Repr

end Sys2Proof
end

