-- ==== Sys2Proof/WellFormed.lean ====
section
/-! DEFINITION. Which instructions have an encoding of their own: an OTHER operation's cause number is none of the
numbers that pass 1 takes (30_encoding R92, R104, R110). -/

namespace Sys2Proof

/-- The asynchronous cause numbers with their own operation (30_encoding R92). -/
def asyncNumbers : List (BitVec 12) := [3, 7, 11]

/-- The synchronous cause numbers with their own operation (30_encoding R92). -/
def syncNumbers : List (BitVec 12) := [2, 8, 9, 11, 12, 13, 15]

/-- An instruction is well-formed when its encoding selects it. -/
def Instr.wf : Instr → Bool
  | .asyncOther _ n => !asyncNumbers.contains n
  | .syncOther _ n => !syncNumbers.contains n
  | .swi _ | .timer _ | .ext _ | .illegal _ | .ecallU _ | .ecallS _ | .ecallM _ => true
  | .ipf _ | .lpf _ | .spf _ => true
  | .frameRegs _ | .frameFregs _ | .frameSatp | .frameTrapStack | .frameHartid => true

end Sys2Proof
end

