-- ==== Sys2Proof/Decode.lean ====
section
/-! DEFINITION. The decoder (total on any bytes, rejecting by name) and, after it, the encoder.
Both read the encodings of 30_encoding R90 (cause word), R107 and R112 (accessor offset) and R110, R111 (opcode map). -/

namespace Sys2Proof

/-! ## Fields of the cause word (30_encoding R90) -/

/-- A, bit 63: 1 for an asynchronous interrupt. -/
def asyncBit (cause : Word) : Bool := cause.getLsbD 63

/-- N, bits 11:0, which is `cause & 0xFFF`. -/
def causeNumber (cause : Word) : BitVec 12 := cause.extractLsb' 0 12

/-- Bits 62:12, latched and never read (30_encoding R91). -/
def causeUpper (cause : Word) : BitVec 51 := cause.extractLsb' 12 51

/-- The cause word with the fields A, 62:12 and N. -/
def causeWord (a : Bool) (upper : BitVec 51) (n : BitVec 12) : Word :=
  BitVec.ofBool a ++ (upper ++ n)

/-! ## The opcode map (30_encoding R110, R111) -/

/-- One row of the opcode map of cause words. -/
structure CauseRow where
  cls       : TrapClass
  matchBits : Word
  mask      : Word
  deriving DecidableEq, Repr

/-- The mask of the ten exact rows (30_encoding R111). -/
def exactMask : Word := 0x8000000000000FFF

/-- The ten exact rows of 30_encoding R111 (pass 1). -/
def exactRows : List CauseRow := [
  ⟨.swi,     0x8000000000000003, exactMask⟩,
  ⟨.timer,   0x8000000000000007, exactMask⟩,
  ⟨.ext,     0x800000000000000B, exactMask⟩,
  ⟨.illegal, 0x0000000000000002, exactMask⟩,
  ⟨.ecallU,  0x0000000000000008, exactMask⟩,
  ⟨.ecallS,  0x0000000000000009, exactMask⟩,
  ⟨.ecallM,  0x000000000000000B, exactMask⟩,
  ⟨.ipf,     0x000000000000000C, exactMask⟩,
  ⟨.lpf,     0x000000000000000D, exactMask⟩,
  ⟨.spf,     0x000000000000000F, exactMask⟩]

/-- A row matches a word when the word's masked bits are the row's match bits. -/
def CauseRow.matches (r : CauseRow) (w : Word) : Bool := w &&& r.mask == r.matchBits

/-- The class a cause word selects, in two passes (30_encoding R110). -/
def selectClass (w : Word) : TrapClass :=
  match exactRows.find? (fun r => r.matches w) with
  | some r => r.cls
  | none => if asyncBit w then .asyncOther else .syncOther

/-- The operation of a class, with the operand bits of a cause word. -/
def Instr.ofClass (c : TrapClass) (w : Word) : Instr :=
  match c with
  | .swi => .swi (causeUpper w)
  | .timer => .timer (causeUpper w)
  | .ext => .ext (causeUpper w)
  | .asyncOther => .asyncOther (causeUpper w) (causeNumber w)
  | .illegal => .illegal (causeUpper w)
  | .ecallU => .ecallU (causeUpper w)
  | .ecallS => .ecallS (causeUpper w)
  | .ecallM => .ecallM (causeUpper w)
  | .ipf => .ipf (causeUpper w)
  | .lpf => .lpf (causeUpper w)
  | .spf => .spf (causeUpper w)
  | .syncOther => .syncOther (causeUpper w) (causeNumber w)

/-- The operation a cause word selects: total on all 2^64 words (30_encoding R110, R113). -/
def decodeCause (w : Word) : Instr := Instr.ofClass (selectClass w) w

/-! ## The accessor offset (30_encoding R107) -/

/-- Why the decoder rejects. -/
inductive Reject where
  /-- The offset is invalid by 30_encoding R107; the accessor answers `FrameFault(BadOffset)`. -/
  | badOffset
  /-- A bit above bit 9 of the two bytes that carry an offset is set: offset bits are never truncated (R114). -/
  | offsetTooWide
  /-- Neither 8 bytes (a cause word) nor 2 bytes (an offset): lengths are fixed (30_encoding R115). -/
  | badLength
  deriving DecidableEq, Repr

/-- The accessor operation an offset selects (30_encoding R107). -/
def decodeOffset (off : BitVec 10) : Except Reject Instr :=
  if off.extractLsb' 0 3 != 0 then .error .badOffset
  else if off.extractLsb' 8 2 == 0 then .ok (.frameRegs (off.extractLsb' 3 5))
  else if off.extractLsb' 8 2 == 1 then .ok (.frameFregs (off.extractLsb' 3 5))
  else if off == 0x200 then .ok .frameSatp
  else if off == 0x208 then .ok .frameTrapStack
  else if off == 0x210 then .ok .frameHartid
  else .error .badOffset

/-! ## Decoding bytes -/

/-- The word whose bytes, least significant first, are given (20_memory R62; log 19). -/
def wordOfBytes : List Byte → Word
  | [] => 0
  | b :: bs => b.setWidth 64 ||| (wordOfBytes bs <<< 8)

/-- Byte `k` of a word, `v[8k+7:8k]` (20_memory R62). -/
def byteOfWord (v : Word) (k : Nat) : Byte := v.extractLsb' (8 * k) 8

/-- The low `n` bytes of a word, least significant first. -/
def bytesOfWord (v : Word) (n : Nat) : List Byte := (List.range n).map (byteOfWord v)

/-- Decode bytes: eight are a cause word, two an accessor offset (30_encoding R115; log 19). -/
def decode (bs : List Byte) : Except Reject Instr :=
  if bs.length = 8 then .ok (decodeCause (wordOfBytes bs))
  else if bs.length = 2 then
    if wordOfBytes bs < 1024 then decodeOffset ((wordOfBytes bs).extractLsb' 0 10)
    else .error .offsetTooWide
  else .error .badLength

/-- The decoder on a row of spec/opcode_table.json: `w` in `nbits` bits, laid out little-endian. -/
def decodeTableWord (nbits w : Nat) : Option Instr :=
  (decode (bytesOfWord (BitVec.ofNat 64 w) ((nbits + 7) / 8))).toOption

/-! ## The encoder -/

/-- The byte offset of `regs[index]` is `8 * index`, that of `fregs[index]` `256 + 8 * index` (30_encoding R106). -/
def elementOffset (bank : BitVec 2) (index : BitVec 5) : BitVec 10 := bank ++ (index ++ 0#3)

/-- The cause word of a cause operation (30_encoding R90, R92), none for an accessor operation. -/
def Instr.cause? : Instr → Option Word
  | .swi u => some (causeWord true u 3)
  | .timer u => some (causeWord true u 7)
  | .ext u => some (causeWord true u 11)
  | .asyncOther u n => some (causeWord true u n)
  | .illegal u => some (causeWord false u 2)
  | .ecallU u => some (causeWord false u 8)
  | .ecallS u => some (causeWord false u 9)
  | .ecallM u => some (causeWord false u 11)
  | .ipf u => some (causeWord false u 12)
  | .lpf u => some (causeWord false u 13)
  | .spf u => some (causeWord false u 15)
  | .syncOther u n => some (causeWord false u n)
  | .frameRegs _ | .frameFregs _ | .frameSatp | .frameTrapStack | .frameHartid => none

/-- The offset of an accessor operation (30_encoding R106, R112), none for a cause operation. -/
def Instr.offset? : Instr → Option (BitVec 10)
  | .frameRegs index => some (elementOffset 0 index)
  | .frameFregs index => some (elementOffset 1 index)
  | .frameSatp => some 0x200
  | .frameTrapStack => some 0x208
  | .frameHartid => some 0x210
  | .swi _ | .timer _ | .ext _ | .asyncOther _ _ => none
  | .illegal _ | .ecallU _ | .ecallS _ | .ecallM _ | .ipf _ | .lpf _ | .spf _ | .syncOther _ _ => none

/-- The bytes of an instruction: eight for a cause word, two for an offset. -/
def encode (i : Instr) : List Byte :=
  match i.cause?, i.offset? with
  | some w, _ => bytesOfWord w 8
  | none, some off => bytesOfWord (off.setWidth 64) 2
  | none, none => []

end Sys2Proof
end

