-- ==== Sys2Proof/Machine/State.lean ====
section
/-! DEFINITION. The state of the block, of the memory and devices around it, and of the inputs still to come, as plain
data; the reasons a step can stop; and the state after reset. -/

namespace Sys2Proof.Machine

/-- The ten FSM states (30_encoding R100, R103). -/
inductive FsmState where
  | idle | decode | log | timerRead | timerWrite | resume | panicLog | haltWrite | halted | undef
  deriving DecidableEq, Repr, Inhabited

/-- The reasons of `raise Undef` (60_exceptions R241). -/
inductive UndefReason where
  | nested | busError
  deriving DecidableEq, Repr

/-- The reasons of `raise FrameFault` (60_exceptions R241, 43_frame_accessor R196). -/
inductive FrameFault where
  | noFrame | badOffset | misaligned | wraps | busError
  deriving DecidableEq, Repr

/-- One answer of the accessor (43_frame_accessor R193, R195, R196). -/
inductive AccAnswer where
  | data (v : Word)
  | error (r : FrameFault)
  deriving DecidableEq, Repr

/-- What a bus transaction is for: the rows of 20_memory R64. -/
inductive Target where
  | uart | mtime | mtimecmp | halt | frame
  deriving DecidableEq, Repr

/-- One transaction the block issued on its bus port, with its response (20_memory R60, R61). -/
inductive BusOp where
  /-- A write answered `ok`. -/
  | write (t : Target) (addr : Word) (bytes : Nat) (v : Word)
  /-- A read answered `ok` with data. -/
  | read (t : Target) (addr : Word) (bytes : Nat) (v : Word)
  /-- A write answered `error`. -/
  | writeError (t : Target) (addr : Word) (bytes : Nat) (v : Word)
  /-- A read answered `error`. -/
  | readError (t : Target) (addr : Word) (bytes : Nat)
  deriving DecidableEq, Repr

/-- The payload of a trap request, in the fixed parameter order of 10_state R40. -/
structure TrapRequest where
  epc    : Word
  tval   : Word
  cause  : Word
  hartid : Word
  status : Word
  frame  : Word
  deriving DecidableEq, Repr

/-- The signals one FSM step sees: `trap_valid_i` with its payload (none when it is 0), `resume_ready_i`, and whether
the bus answers `error` to the FSM's transaction of this step (10_state R40, R43; 20_memory R61). -/
structure Signals where
  trap         : Option TrapRequest
  resume_ready : Bool
  bus_error    : Bool
  deriving DecidableEq, Repr

/-- Who makes an access from outside the block: this instance's hart (its software and entry sequence), or any
other bus master (60_exceptions R250; log 18). -/
inductive Agent where
  | hart | other
  deriving DecidableEq, Repr

/-- One input event (30_encoding R116, and what else the outside world can do; log 2). -/
inductive Input where
  /-- One FSM step with these signals (`TRAP` and `ACK` of 30_encoding R116). -/
  | tick (sig : Signals)
  /-- One accessor request, and whether the bus answers its read with `error` (`READ`; 10_state R48). -/
  | read (off : BitVec 10) (bus_error : Bool)
  /-- Block reset (`RESET`; 70_reset R280). -/
  | reset
  /-- The platform moves the time counter to this value (20_memory R75). -/
  | time (now : Word)
  /-- Software outside the block writes the timer compare register (70_reset R287 step 6): the 8-byte `store` at
  MTIMECMP_ADDR. -/
  | compare (who : Agent) (deadline : Word)
  /-- The diagnostic channel's receive registers change (20_memory R72). -/
  | receive (status data : Byte)
  /-- An agent outside the block stores the low bytes of `v` at `addr` (60_exceptions R250 (b)). -/
  | store (who : Agent) (addr : Word) (size : Size) (v : Word)
  /-- An interrupt source comes to stay pending, uncleared by the platform, with the request the hart then presents; or,
  with none, it is cleared (70_reset R290; log 2). It replaces a source held before. DESIGN CHOICE (log 25). -/
  | pend (source : Option TrapRequest)
  deriving DecidableEq, Repr

/-- Why the machine stops with a fault. -/
inductive Fault where
  /-- An accessor read, with a live and well-placed frame and a bus that answers ok, of a byte that nothing has stored:
  the entry sequence broke duty (b) of 60_exceptions R250, which R263 gives no meaning. Raised by the five
  FRAME operations; in no state that meets the invariant, since acceptance asks for a stored frame. SAFE (log 9). -/
  | frameByteNotStored
  deriving DecidableEq, Repr

/-- Why the model gives a step no meaning. -/
inductive Refusal where
  /-- An instruction without a meaning, by its mnemonic. Raised by no arm of `exec` in this model. SAFE. -/
  | notModelled (mnemonic : String)
  /-- The instance breaks alignment or disjointness: "A model refuses to build it" (20_memory R63, R67).
  Raised by `step`. SAFE (log 13). -/
  | illFormedInstance
  /-- The frame of the presented request overlaps a device region: "the model gives such a trap no meaning"
  (20_memory R67, 60_exceptions R263). Raised by acceptance, in every cause operation. SAFE (log 12). -/
  | frameOverlapsDevice
  /-- A byte of the presented request's 536-byte frame has not been stored: duty (b) of 60_exceptions R250, to which
  R263 gives no meaning. Raised by acceptance, in every cause operation. SAFE (log 23). -/
  | frameNotStored
  /-- The hart accesses memory while the block is busy: duty (e) of 60_exceptions R250, no meaning by R263.
  Raised by `Input.store` and `Input.compare`. SAFE (log 18). -/
  | hartAccessWhileBusy
  /-- An agent stores into a live frame: duty (f) of 60_exceptions R250 and 70_reset R296, no meaning by R263.
  Raised by `Input.store`. SAFE (log 18). -/
  | storeIntoLiveFrame
  /-- An agent outside the block stores into a device window, and the store is none of the writes 20_memory R66 gives an
  effect: another width than R64's ("A model may refuse any other width at these addresses", R80), or a byte of
  the channel or the counter for which no rule states a write. Raised by `Input.store`. SAFE (log 18). -/
  | outsideStoreToDevice
  deriving DecidableEq, Repr

/-- The state. Everything the spec names, and the model's own fields last. -/
structure State where
  -- block registers (10_state R21 to R34)
  /-- The FSM state (R21). -/
  fsm_state  : FsmState
  /-- The latched `exception_pc` (R22). -/
  epc_q      : Word
  /-- The latched `trap_value` (R23). -/
  tval_q     : Word
  /-- The latched `cause` (R24). -/
  cause_q    : Word
  /-- The latched `hart_id` (R25). -/
  hartid_q   : Word
  /-- The latched `status`, read by no rule (R26). -/
  status_q   : Word
  /-- The trap frame pointer (R27). -/
  frame_q    : Word
  /-- The asynchronous flag (R28). -/
  is_async_q : Bool
  /-- The cause number (R29). -/
  cnum_q     : BitVec 12
  /-- The dispatch class (R30). -/
  class_q    : TrapClass
  /-- The resume address (R31). -/
  resume_q   : Word
  /-- The counter value TIMER_READ read (R32). -/
  now_q      : Word
  /-- The diagnostic bytes not yet written (R33). -/
  diag_q     : List Byte
  /-- Sticky: HALTED was entered (R34). -/
  halted_q   : Bool
  /-- Sticky: UNDEF was entered (R34). -/
  undef_q    : Bool
  -- the accessor's output port
  /-- The answer the last step gave, if it was an accessor read (10_state R48, 43_frame_accessor R195). -/
  acc_answer : Option AccAnswer
  -- memory and devices
  /-- Byte memory, holding the trap frames (10_state R39, 20_memory R60). -/
  mem         : List Host.Cell
  /-- The time counter (20_memory R75). -/
  mtime       : Word
  /-- The timer compare register (20_memory R75). -/
  mtimecmp    : Word
  /-- The channel's receive status byte, at `UART_BASE+5` (20_memory R72). -/
  uart_status : Byte
  /-- The channel's receive data byte, at `UART_BASE+0` (20_memory R72). -/
  uart_data   : Byte
  /-- The bytes handed to the channel to transmit, by anyone, oldest first (20_memory R66, R70, R74). -/
  uart_tx     : List Byte
  /-- The values written to the halt device, by anyone, oldest first (20_memory R66, R76). -/
  halt_seen   : List Word
  -- the instance
  /-- The OPEN parameters (00_scope R6, R7). -/
  cfg : Params
  -- the model's own fields
  /-- Input events still to come, oldest first (log 2). -/
  inputs       : List Input
  /-- The interrupt source that stays pending, as the request it makes the hart present; none when every source is
  cleared (70_reset R290; log 2). At most one: DESIGN CHOICE, unsafe for claims about several pending sources (log 25). -/
  uncleared    : Option TrapRequest
  /-- The draw counter of the free values (log 7). -/
  draws        : Nat
  /-- The argument of the last `raise Undef` since reset (60_exceptions R241; log 17). -/
  undef_reason : Option UndefReason
  /-- The transactions the block has issued, oldest first (20_memory R69; log 16). -/
  bus          : List BusOp
  deriving DecidableEq, Repr

/-- Placeholder parameters for `State.reset`: well-formed, and NOT this hardware's values, which the spec leaves OPEN
(00_scope R6). DESIGN CHOICE, unsafe (log 4): no statement rests on them. -/
def placeholderParams : Params where
  uart_base     := 0x1000
  mtime_addr    := 0x2000
  mtimecmp_addr := 0x3000
  halt_addr     := 0x4000
  halt_value    := 0xA5A5A5A5A5A5A5A5
  halt_width    := .b8
  rx_ready_mask := 0x80

/-- The state after reset (10_state R50): IDLE, no diagnostic bytes, both sticky flags 0. The registers R50 leaves
unspecified, and the devices' registers, are 0 here, and the devices have received nothing. DESIGN CHOICE, unsafe
(log 5, log 10). -/
def State.reset : State where
  fsm_state  := .idle
  epc_q      := 0
  tval_q     := 0
  cause_q    := 0
  hartid_q   := 0
  status_q   := 0
  frame_q    := 0
  is_async_q := false
  cnum_q     := 0
  class_q    := .swi
  resume_q   := 0
  now_q      := 0
  diag_q     := []
  halted_q   := false
  undef_q    := false
  acc_answer := none
  mem         := []
  mtime       := 0
  mtimecmp    := 0
  uart_status := 0
  uart_data   := 0
  uart_tx     := []
  halt_seen   := []
  cfg := placeholderParams
  inputs       := []
  uncleared    := none
  draws        := 0
  undef_reason := none
  bus          := []

end Sys2Proof.Machine
end

