-- ==== Sys2Proof/Machine/Encodings.lean ====
section
/-! DEFINITION. The codes of states and classes, the tiers, and the classification of a cause (30_encoding R100 to R105,
40_cause_decode R122). -/

namespace Sys2Proof.Machine

/-- The 4-bit code of an FSM state (30_encoding R100). -/
def stateCode : FsmState → BitVec 4
  | .idle => 0x0
  | .decode => 0x1
  | .log => 0x2
  | .timerRead => 0x3
  | .timerWrite => 0x4
  | .resume => 0x5
  | .panicLog => 0x6
  | .haltWrite => 0x7
  | .halted => 0x8
  | .undef => 0x9

/-- The 4-bit code of a class (30_encoding R104). -/
def classCode : TrapClass → BitVec 4
  | .swi => 0x0
  | .timer => 0x1
  | .ext => 0x2
  | .asyncOther => 0x3
  | .illegal => 0x4
  | .ecallU => 0x5
  | .ecallS => 0x6
  | .ecallM => 0x7
  | .ipf => 0x8
  | .lpf => 0x9
  | .spf => 0xA
  | .syncOther => 0xB

/-- The seven busy states (30_encoding R102). -/
def isBusy : FsmState → Bool
  | .decode | .log | .timerRead | .timerWrite | .resume | .panicLog | .haltWrite => true
  | .idle | .halted | .undef => false

/-- The frame is live in the busy states and in HALTED (43_frame_accessor R192). -/
def frameLive : FsmState → Bool
  | .decode | .log | .timerRead | .timerWrite | .resume | .panicLog | .haltWrite | .halted => true
  | .idle | .undef => false

/-- The two tiers (30_encoding R104). -/
inductive Tier where
  | recoverable | fatal
  deriving DecidableEq, Repr

/-- The tier column of 30_encoding R104. -/
def tier : TrapClass → Tier
  | .swi | .timer | .ext | .ecallU | .ecallS | .ipf | .lpf | .spf => .recoverable
  | .asyncOther | .illegal | .ecallM | .syncOther => .fatal

/-- The classes whose resume address is `epc_q + 4` (30_encoding R105). -/
def skips : TrapClass → Bool
  | .ecallU | .ecallS | .ipf | .lpf | .spf => true
  | .swi | .timer | .ext | .asyncOther | .illegal | .ecallM | .syncOther => false

/-- `Classify(a, n)` (40_cause_decode R122). -/
def classify (a : Bool) (n : BitVec 12) : TrapClass :=
  if a then
    if n = 0x003 then .swi
    else if n = 0x007 then .timer
    else if n = 0x00B then .ext
    else .asyncOther
  else
    if n = 0x002 then .illegal
    else if n = 0x008 then .ecallU
    else if n = 0x009 then .ecallS
    else if n = 0x00B then .ecallM
    else if n = 0x00C then .ipf
    else if n = 0x00D then .lpf
    else if n = 0x00F then .spf
    else .syncOther

/-- The class of a cause word: `Classify(cause[63], cause[11:0])` (40_cause_decode R122). -/
def classOfCause (cause : Word) : TrapClass := classify (asyncBit cause) (causeNumber cause)

/-- The class of a cause operation, none for an accessor operation (30_encoding R104, R111). -/
def opClass : Instr → Option TrapClass
  | .swi _ => some .swi
  | .timer _ => some .timer
  | .ext _ => some .ext
  | .asyncOther _ _ => some .asyncOther
  | .illegal _ => some .illegal
  | .ecallU _ => some .ecallU
  | .ecallS _ => some .ecallS
  | .ecallM _ => some .ecallM
  | .ipf _ => some .ipf
  | .lpf _ => some .lpf
  | .spf _ => some .spf
  | .syncOther _ _ => some .syncOther
  | .frameRegs _ | .frameFregs _ | .frameSatp | .frameTrapStack | .frameHartid => none

end Sys2Proof.Machine
end

