-- ==== Sys2Proof/Machine/Memory.lean ====
section
/-! DEFINITION. Byte memory in one canonical form, and the little-endian reads and writes over it (20_memory R60, R62).
An unlisted address has no value (log 9), so the form asks only for strictly rising addresses inside the 64-bit space. -/

namespace Sys2Proof.Machine

/-- The list's addresses rise strictly from `lo` and stay below 2^64. -/
def memWfFrom (lo : Nat) : List Host.Cell → Bool
  | [] => true
  | c :: m => decide (lo ≤ c.1) && decide (c.1 < 2 ^ 64) && memWfFrom (c.1 + 1) m

/-- The canonical form of memory. -/
def Memory.wf (m : List Host.Cell) : Bool := memWfFrom 0 m

/-- The byte at an address; none where nothing has been stored (log 9). -/
def readByte (m : List Host.Cell) (a : Nat) : Option Byte :=
  match m with
  | [] => none
  | c :: m => if c.1 = a then some c.2 else readByte m a

/-- Store a byte, keeping the canonical form. -/
def writeByte (m : List Host.Cell) (a : Nat) (b : Byte) : List Host.Cell :=
  match m with
  | [] => [(a, b)]
  | c :: m =>
    if a < c.1 then (a, b) :: c :: m
    else if a = c.1 then (a, b) :: m
    else c :: writeByte m a b

/-- `MemRead(addr, n)` over memory: `n` bytes from `addr` upward, assembled little-endian (20_memory R62). -/
def memRead (m : List Host.Cell) (addr : Word) : Nat → Option Word
  | 0 => some 0
  | n + 1 =>
    match readByte m addr.toNat, memRead m (addr + 1) n with
    | some b, some v => some (b.setWidth 64 ||| (v <<< 8))
    | _, _ => none

/-- `MemWrite(addr, n, v)` over memory: byte `k` of `v` at `addr + k`, for `k` below `n` (20_memory R62). -/
def memWrite (m : List Host.Cell) (addr : Word) (n : Nat) (v : Word) : List Host.Cell :=
  match n with
  | 0 => m
  | n + 1 => memWrite (writeByte m addr.toNat (byteOfWord v 0)) (addr + 1) n (v >>> 8)

/-- Each of the `n` addresses from `a` on is listed, in one pass over the rising list. -/
def storedRun (m : List Host.Cell) (a n : Nat) : Bool :=
  match m with
  | [] => decide (n = 0)
  | c :: m => if c.1 < a then storedRun m a n else decide (n = 0) || (decide (c.1 = a) && storedRun m (a + 1) (n - 1))

end Sys2Proof.Machine
end

