-- ==== Sys2Proof/Machine/Parameters.lean ====
section
/-! DEFINITION. The numbers the spec states (00_scope R6), and which instances are well-formed (20_memory R63, R67). -/

namespace Sys2Proof.Machine

/-- `SKIP`, the resume-address adjustment in bytes (00_scope R6). -/
def skipBytes : Word := 4

/-- `TICK`, the timer interval in counter units (00_scope R6). Irreducible, so that no proof counts the numeral down. -/
@[irreducible] def tick : Word := 10000000

/-- `FRAME_SIZE` in bytes (00_scope R6). -/
def frameSize : Nat := 536

/-- `UART_RX_STATUS_OFFSET` (00_scope R6). -/
def uartRxStatusOffset : Nat := 5

/-- The number of bytes of an access size. -/
def sizeBytes : Size → Nat
  | .b1 => 1
  | .b2 => 2
  | .b4 => 4
  | .b8 => 8

/-- A contiguous range of addresses. -/
structure Region where
  base : Nat
  size : Nat
  deriving DecidableEq, Repr

/-- Two regions share no address. -/
def Region.disjoint (r q : Region) : Bool :=
  decide (r.base + r.size ≤ q.base) || decide (q.base + q.size ≤ r.base)

/-- The region holds the address. -/
def Region.holds (r : Region) (a : Nat) : Bool := decide (r.base ≤ a) && decide (a < r.base + r.size)

/-- The diagnostic channel: bytes `UART_BASE` to `UART_BASE+5` (20_memory R67). -/
def uartRegion (p : Params) : Region := ⟨p.uart_base.toNat, uartRxStatusOffset + 1⟩

/-- The time counter (20_memory R67). -/
def mtimeRegion (p : Params) : Region := ⟨p.mtime_addr.toNat, 8⟩

/-- The timer compare register (20_memory R67). -/
def mtimecmpRegion (p : Params) : Region := ⟨p.mtimecmp_addr.toNat, 8⟩

/-- The halt device (20_memory R67). -/
def haltRegion (p : Params) : Region := ⟨p.halt_addr.toNat, sizeBytes p.halt_width⟩

/-- The four device regions (20_memory R67). -/
def deviceRegions (p : Params) : List Region :=
  [uartRegion p, mtimeRegion p, mtimecmpRegion p, haltRegion p]

/-- The frame region `[frame_q, frame_q+536)`, computed without wrap (20_memory R67). -/
def frameRegion (frame : Word) : Region := ⟨frame.toNat, frameSize⟩

/-- The frame region overlaps a device region: a breach of the input contract (20_memory R67). -/
def frameOverlapsDevice (p : Params) (frame : Word) : Bool :=
  (deviceRegions p).any (fun r => !r.disjoint (frameRegion frame))

/-- The device addresses are naturally aligned (20_memory R63). -/
def addressesAligned (p : Params) : Bool :=
  decide (p.mtime_addr.toNat % 8 = 0) && decide (p.mtimecmp_addr.toNat % 8 = 0) &&
    decide (p.halt_addr.toNat % sizeBytes p.halt_width = 0)

/-- The four regions are pairwise disjoint (20_memory R67). -/
def regionsDisjoint (p : Params) : Bool :=
  (uartRegion p).disjoint (mtimeRegion p) && (uartRegion p).disjoint (mtimecmpRegion p) &&
    (uartRegion p).disjoint (haltRegion p) && (mtimeRegion p).disjoint (mtimecmpRegion p) &&
    (mtimeRegion p).disjoint (haltRegion p) && (mtimecmpRegion p).disjoint (haltRegion p)

/-- The channel's six bytes lie in the address space. DEDUCED (log 13): R67 names them by their addresses. -/
def uartFits (p : Params) : Bool := decide (p.uart_base.toNat + uartRxStatusOffset < 2 ^ 64)

/-- `RX_READY_MASK` has exactly one bit set (00_scope R6). -/
def oneBitMask (m : Byte) : Bool := (List.range 8).any (fun k => m == 1#8 <<< k)

/-- The instance can be built (20_memory R63, R67; 00_scope R6). -/
def instanceWf (p : Params) : Bool :=
  addressesAligned p && regionsDisjoint p && uartFits p && oneBitMask p.rx_ready_mask

/-- Building an instance: the state after reset with these parameters; "A model refuses to build" an
ill-formed one (20_memory R63). -/
def buildInstance (p : Params) : Option State :=
  if instanceWf p then some { State.reset with cfg := p } else none

end Sys2Proof.Machine
end

