-- ==== Sys2Proof/Machine/Operands.lean ====
section
/-! DEFINITION. What a step reads as its operands: the signals of the head input, the address and width of each bus
transaction (20_memory R64), and the accessor's address and checks (43_frame_accessor R191, R196). -/

namespace Sys2Proof.Machine

/-- Every input signal low and the bus answering ok. -/
def quietSignals : Signals := ⟨none, false, false⟩

/-- The signals when no input is left: quiet, unless a source stays uncleared; then the hart completes each resume and
re-takes the interrupt, presenting its request whenever the block is in IDLE, without end (70_reset R290; log 2). -/
def pendingSignals (s : State) : Signals :=
  ⟨if s.fsm_state = .idle then s.uncleared else none, s.uncleared.isSome, false⟩

/-- The signals the FSM sees in this step (log 2). -/
def signals (s : State) : Signals :=
  match s.inputs with
  | .tick sig :: _ => sig
  | .read _ _ :: _ | .reset :: _ | .time _ :: _ | .compare _ _ :: _ | .receive _ _ :: _ => quietSignals
  | .store _ _ _ _ :: _ | .pend _ :: _ => quietSignals
  | [] => pendingSignals s

/-- Whether the bus answers `error` to the accessor's read in this step. -/
def accBusError (s : State) : Bool :=
  match s.inputs with
  | .read _ e :: _ => e
  | .tick _ :: _ | .reset :: _ | .time _ :: _ | .compare _ _ :: _ | .receive _ _ :: _ => false
  | .store _ _ _ _ :: _ | .pend _ :: _ => false
  | [] => false

/-- The address of a device transaction (20_memory R64). A frame read has its own address, `fieldAddr`. -/
def deviceAddr (p : Params) (frame : Word) : Target → Word
  | .uart => p.uart_base
  | .mtime => p.mtime_addr
  | .mtimecmp => p.mtimecmp_addr
  | .halt => p.halt_addr
  | .frame => frame

/-- The width in bytes of a transaction (20_memory R64). -/
def targetBytes (p : Params) : Target → Nat
  | .uart => 1
  | .mtime => 8
  | .mtimecmp => 8
  | .halt => sizeBytes p.halt_width
  | .frame => 8

/-- The low `8n` bits of a value, which is what an `n`-byte write carries (00_scope R9). -/
def lowBytes (n : Nat) (v : Word) : Word := (v.setWidth (8 * n)).setWidth 64

/-- Every byte of the 536-byte frame has been stored: duty (b) of 60_exceptions R250. Of a frame that crosses the top of
the address space, which the accessor answers with Wraps (43_frame_accessor R196), it asks the bytes below the top. -/
def frameIsStored (m : List Host.Cell) (frame : Word) : Bool :=
  storedRun m frame.toNat (min frameSize (2 ^ 64 - frame.toNat))

/-- The address of the frame field at an offset (43_frame_accessor R191). -/
def fieldAddr (frame : Word) (off : BitVec 10) : Word := frame + off.setWidth 64

/-- Whether an offset names a field (30_encoding R107). -/
def offsetValid (off : BitVec 10) : Bool := (decodeOffset off).toOption.isSome

/-- Checks 1 to 4 of FrameCheck, in order; the first that fails gives the reason (43_frame_accessor R196). -/
def frameCheck (s : State) (off : BitVec 10) : Option FrameFault :=
  if !frameLive s.fsm_state then some .noFrame
  else if !offsetValid off then some .badOffset
  else if s.frame_q.extractLsb' 0 3 != 0 then some .misaligned
  else if s.frame_q.toNat + frameSize > 2 ^ 64 then some .wraps
  else none

end Sys2Proof.Machine
end

