-- ==== Sys2Proof/Machine/Ops.lean ====
section
/-! DEFINITION. The shared operations: bus transactions, entry to UNDEF and to the panic sequence, acceptance, and the step
of each FSM state (10_state R42, R44; 40_cause_decode; 41 R142, R143; 44_diag_and_halt; 60_exceptions R262). -/

namespace Sys2Proof.Machine

/-- The outcome of one step. -/
abbrev Out := Host.Outcome State Fault Refusal

/-- `state <- S` (00_scope R9). -/
def goto (f : FsmState) (s : State) : State := { s with fsm_state := f }

/-! ## The block's own exception: `raise Undef` (60_exceptions R262) -/

/-- `raise Undef(r)`: `undef_q <- 1`, `state <- UNDEF`, and nothing else of the step takes effect. -/
def raiseUndef (r : UndefReason) (s : State) : State :=
  { s with undef_q := true, fsm_state := .undef, undef_reason := some r }

/-- A busy state's step: a nested request takes priority over every other rule of the step (60_exceptions R262). -/
def unlessNested (act : State → State) (s : State) : State :=
  if (signals s).trap.isSome then raiseUndef .nested s else act s

/-! ## Bus transactions of the FSM (20_memory R60, R61, R64) -/

/-- What a write does at the device (20_memory R66): the channel is handed the byte (R70), the compare register takes the
deadline (R75), the halt device sees the value (R76). No rule writes the counter or the frame this way. -/
def deviceWrite (t : Target) (v : Word) (s : State) : State :=
  match t with
  | .uart => { s with uart_tx := s.uart_tx ++ [v.setWidth 8] }
  | .mtimecmp => { s with mtimecmp := v }
  | .halt => { s with halt_seen := s.halt_seen ++ [v] }
  | .mtime | .frame => s

/-- `MemWrite` to a device and, when the bus answers ok, the rest of the step; `error` is `raise Undef(BusError)`
(20_memory R61). A write answered `error` reaches no device (log 16). -/
def busWrite (t : Target) (v : Word) (rest : State → State) (s : State) : State :=
  if (signals s).bus_error then
    raiseUndef .busError
      { s with bus := s.bus ++ [.writeError t (deviceAddr s.cfg s.frame_q t) (targetBytes s.cfg t) v] }
  else
    rest (deviceWrite t v
      { s with bus := s.bus ++ [.write t (deviceAddr s.cfg s.frame_q t) (targetBytes s.cfg t) v] })

/-- `MemRead` of the time counter: one 8-byte read (41_async_dispatch R142). -/
def busReadTime (rest : Word → State → State) (s : State) : State :=
  if (signals s).bus_error then
    raiseUndef .busError
      { s with bus := s.bus ++ [.readError .mtime (deviceAddr s.cfg s.frame_q .mtime) (targetBytes s.cfg .mtime)] }
  else
    rest s.mtime
      { s with bus := s.bus ++ [.read .mtime (deviceAddr s.cfg s.frame_q .mtime) (targetBytes s.cfg .mtime) s.mtime] }

/-! ## IDLE: acceptance (10_state R41, R42) -/

/-- The six inputs latched, and `state <- DECODE` (10_state R42). -/
def latchRequest (r : TrapRequest) (s : State) : State :=
  { s with epc_q := r.epc, tval_q := r.tval, cause_q := r.cause, hartid_q := r.hartid,
           status_q := r.status, frame_q := r.frame, fsm_state := .decode }

/-- The IDLE step: accept the presented request, or wait. A request whose frame overlaps a device, or is not wholly
stored, has no meaning (20_memory R67, 60_exceptions R250 (b), R263; log 12, log 23). -/
def acceptRequest (s : State) : Out :=
  match (signals s).trap with
  | none => .next s
  | some r =>
    if frameOverlapsDevice s.cfg r.frame then .refused .frameOverlapsDevice
    else if !frameIsStored s.mem r.frame then .refused .frameNotStored
    else .next (latchRequest r s)

/-! ## DECODE (40_cause_decode R120 to R123) -/

/-- Parts 1 and 2: the fields of the cause and the initial resume address (R120, R121). -/
def decodeFields (s : State) : State :=
  { s with is_async_q := asyncBit s.cause_q, cnum_q := causeNumber s.cause_q, resume_q := s.epc_q }

/-- DECODE of a recoverable class: its message is drawn, `state <- LOG` (R122, R123). -/
def decodeRecoverable (c : TrapClass) (s : State) : State :=
  { decodeFields s with
      class_q := c
      diag_q := Config.diagBytes s.draws c s.epc_q s.tval_q s.cause_q s.hartid_q
      fsm_state := .log }

/-- `raise Fatal(c)`, which is DECODE of a fatal class: its panic record is drawn, `state <- PANIC_LOG`
(R122, R123; 44_diag_and_halt R220). -/
def raiseFatal (c : TrapClass) (s : State) : State :=
  { decodeFields s with
      class_q := c
      diag_q := Config.panicBytes s.draws c s.epc_q s.tval_q s.cause_q s.hartid_q
      fsm_state := .panicLog }

/-! ## LOG and PANIC_LOG (44_diag_and_halt R210 to R212, R221) -/

/-- Write the head byte of `diag_q` and remove it, or run the state's end when the list is empty. -/
def emitStep (atEnd : State → State) (s : State) : State :=
  match s.diag_q with
  | [] => atEnd s
  | b :: rest => busWrite .uart (b.setWidth 64) (fun t => { t with diag_q := rest }) s

/-- `Skip`: `resume_q <- resume_q + SKIP` (42_sync_dispatch R162). -/
def skip (s : State) : State := { s with resume_q := s.resume_q + skipBytes }

/-! ## TIMER_READ and TIMER_WRITE (41_async_dispatch R142, R143) -/

/-- `now_q <- MemRead(MTIME_ADDR, 8); state <- TIMER_WRITE`. -/
def timerReadStep (s : State) : State :=
  busReadTime (fun v t => { t with now_q := v, fsm_state := .timerWrite }) s

/-- `MemWrite(MTIMECMP_ADDR, 8, now_q + TICK); state <- RESUME`. -/
def timerWriteStep (s : State) : State := busWrite .mtimecmp (s.now_q + tick) (goto .resume) s

/-! ## RESUME, the return from a trap (10_state R44), and HALT_WRITE (44_diag_and_halt R222) -/

/-- Present `resume_q` until `resume_ready_i`, then `state <- IDLE`. -/
def resumeStep (s : State) : State := if (signals s).resume_ready then goto .idle s else s

/-- `MemWrite(HALT_ADDR, HALT_WIDTH, HALT_VALUE); halted_q <- 1; state <- HALTED`. -/
def haltWriteStep (s : State) : State :=
  busWrite .halt (lowBytes (targetBytes s.cfg .halt) s.cfg.halt_value)
    (fun t => { t with halted_q := true, fsm_state := .halted }) s

/-! ## One FSM transition of a cause operation -/

/-- The transition of the FSM state for an operation that does `atDecode` in DECODE and `atLogEnd` when LOG finds
`diag_q` empty (30_encoding R101). HALTED and UNDEF keep every register (44_diag_and_halt R223, 60_exceptions R262). -/
def dispatchStep (atDecode atLogEnd : State → State) (s : State) : Out :=
  match s.fsm_state with
  | .idle => acceptRequest s
  | .decode => .next (unlessNested atDecode s)
  | .log => .next (unlessNested (emitStep atLogEnd) s)
  | .timerRead => .next (unlessNested timerReadStep s)
  | .timerWrite => .next (unlessNested timerWriteStep s)
  | .resume => .next (unlessNested resumeStep s)
  | .panicLog => .next (unlessNested (emitStep (goto .haltWrite)) s)
  | .haltWrite => .next (unlessNested haltWriteStep s)
  | .halted => .next s
  | .undef => .next s

/-- A recoverable operation of class `c`, whose class action at the end of LOG is given. -/
def recoverable (c : TrapClass) (atLogEnd : State → State) (s : State) : Out :=
  dispatchStep (decodeRecoverable c) atLogEnd s

/-- A fatal operation of class `c`. LOG is no state of such an operation; if it is run there, R212 sends it to RESUME
(44_diag_and_halt R212 "else"; log 20). -/
def fatal (c : TrapClass) (s : State) : Out := dispatchStep (raiseFatal c) (goto .resume) s

/-! ## The accessor (43_frame_accessor R193 to R196) -/

/-- One accessor request at an offset. It changes no register; the five checks come first, in order (R196).
A byte nothing has stored has no value (log 9). -/
def accessorRead (off : BitVec 10) (s : State) : Out :=
  match frameCheck s off with
  | some r => .next { s with acc_answer := some (.error r) }
  | none =>
    if accBusError s then
      .next { s with acc_answer := some (.error .busError)
                     bus := s.bus ++ [.readError .frame (fieldAddr s.frame_q off) 8] }
    else
      match memRead s.mem (fieldAddr s.frame_q off) 8 with
      | none => .fault .frameByteNotStored
      | some v =>
        .next { s with acc_answer := some (.data v)
                       bus := s.bus ++ [.read .frame (fieldAddr s.frame_q off) 8 v] }

end Sys2Proof.Machine
end

