-- ==== Sys2Proof/Machine/Async.lean ====
section
/-! DEFINITION. The four asynchronous cause operations (41_async_dispatch). -/

namespace Sys2Proof.Machine

/-- SWI (41_async_dispatch R140): log and resume at `epc_q`; no pending bit is cleared. -/
def execSwi (_upper : BitVec 51) (s : State) : Out := recoverable .swi (goto .resume) s

/-- TIMER (41_async_dispatch R141 to R143): log, read the counter, write the compare register, resume at `epc_q`. -/
def execTimer (_upper : BitVec 51) (s : State) : Out := recoverable .timer (goto .timerRead) s

/-- EXT (41_async_dispatch R144): log and resume at `epc_q`; no controller is accessed. -/
def execExt (_upper : BitVec 51) (s : State) : Out := recoverable .ext (goto .resume) s

/-- ASYNC_OTHER (41_async_dispatch R145): fatal. -/
def execAsyncOther (_upper : BitVec 51) (_n : BitVec 12) (s : State) : Out := fatal .asyncOther s

end Sys2Proof.Machine
end

