-- ==== Sys2Proof/Machine/Frame.lean ====
section
/-! DEFINITION. The five accessor operations (43_frame_accessor R193). -/

namespace Sys2Proof.Machine

/-- FRAME_REGS: `regs[index]`, at offset `8 * index`. -/
def execFrameRegs (index : BitVec 5) (s : State) : Out := accessorRead (elementOffset 0 index) s

/-- FRAME_FREGS: `fregs[index]`, at offset `256 + 8 * index`, raw bits (43_frame_accessor R199). -/
def execFrameFregs (index : BitVec 5) (s : State) : Out := accessorRead (elementOffset 1 index) s

/-- FRAME_SATP: `satp`, at offset 0x200, never interpreted (43_frame_accessor R199). -/
def execFrameSatp (s : State) : Out := accessorRead 0x200 s

/-- FRAME_TRAP_STACK: the trap-stack pointer, at offset 0x208. -/
def execFrameTrapStack (s : State) : Out := accessorRead 0x208 s

/-- FRAME_HARTID: the frame's `hartid` field, at offset 0x210; it is never compared with `hartid_q` (R198). -/
def execFrameHartid (s : State) : Out := accessorRead 0x210 s

end Sys2Proof.Machine
end

