-- ==== Sys2Proof/Machine/Sync.lean ====
section
/-! DEFINITION. The eight synchronous cause operations (42_sync_dispatch). -/

namespace Sys2Proof.Machine

/-- ILLEGAL (42_sync_dispatch R160): fatal. -/
def execIllegal (_upper : BitVec 51) (s : State) : Out := fatal .illegal s

/-- ECALL_U (42_sync_dispatch R161): log, skip the call, resume at `epc_q + 4`. -/
def execEcallU (_upper : BitVec 51) (s : State) : Out := recoverable .ecallU (fun t => goto .resume (skip t)) s

/-- ECALL_S (42_sync_dispatch R163): as ECALL_U. -/
def execEcallS (_upper : BitVec 51) (s : State) : Out := recoverable .ecallS (fun t => goto .resume (skip t)) s

/-- ECALL_M (42_sync_dispatch R164): fatal; no skip is applied. -/
def execEcallM (_upper : BitVec 51) (s : State) : Out := fatal .ecallM s

/-- IPF (42_sync_dispatch R165): log, skip, resume at `epc_q + 4`; no page is mapped. -/
def execIpf (_upper : BitVec 51) (s : State) : Out := recoverable .ipf (fun t => goto .resume (skip t)) s

/-- LPF (42_sync_dispatch R166): as IPF. -/
def execLpf (_upper : BitVec 51) (s : State) : Out := recoverable .lpf (fun t => goto .resume (skip t)) s

/-- SPF (42_sync_dispatch R167): as IPF. -/
def execSpf (_upper : BitVec 51) (s : State) : Out := recoverable .spf (fun t => goto .resume (skip t)) s

/-- SYNC_OTHER (42_sync_dispatch R168): fatal. -/
def execSyncOther (_upper : BitVec 51) (_n : BitVec 12) (s : State) : Out := fatal .syncOther s

end Sys2Proof.Machine
end

