-- ==== Sys2Proof/Machine/Dispatch.lean ====
section
/-! DEFINITION. The meaning of every operation: one arm per row of spec/opcode_table.json. -/

namespace Sys2Proof.Machine

/-- The one transition operation `i` makes in state `s` (log 1). -/
def exec (i : Instr) (s : State) : Host.Outcome State Fault Refusal :=
  match i with
  -- asynchronous causes (41_async_dispatch)
  | .swi upper => Sys2Proof.Machine.execSwi upper s
  | .timer upper => Sys2Proof.Machine.execTimer upper s
  | .ext upper => Sys2Proof.Machine.execExt upper s
  | .asyncOther upper n => Sys2Proof.Machine.execAsyncOther upper n s
  -- synchronous causes (42_sync_dispatch)
  | .illegal upper => Sys2Proof.Machine.execIllegal upper s
  | .ecallU upper => Sys2Proof.Machine.execEcallU upper s
  | .ecallS upper => Sys2Proof.Machine.execEcallS upper s
  | .ecallM upper => Sys2Proof.Machine.execEcallM upper s
  | .ipf upper => Sys2Proof.Machine.execIpf upper s
  | .lpf upper => Sys2Proof.Machine.execLpf upper s
  | .spf upper => Sys2Proof.Machine.execSpf upper s
  | .syncOther upper n => Sys2Proof.Machine.execSyncOther upper n s
  -- frame accessor (43_frame_accessor)
  | .frameRegs index => Sys2Proof.Machine.execFrameRegs index s
  | .frameFregs index => Sys2Proof.Machine.execFrameFregs index s
  | .frameSatp => Sys2Proof.Machine.execFrameSatp s
  | .frameTrapStack => Sys2Proof.Machine.execFrameTrapStack s
  | .frameHartid => Sys2Proof.Machine.execFrameHartid s

end Sys2Proof.Machine
end

