-- ==== Sys2Proof/Machine/Platform.lean ====
section
/-! DEFINITION. What happens to the state from outside the FSM: reset (70_reset R280 to R282), the platform's devices
(20_memory R66, R70 to R76), and stores by agents outside the block (60_exceptions R250, R263). -/

namespace Sys2Proof.Machine

/-- A RESET event: the values of 10_state R50, the unspecified registers drawn freely (log 6). It issues no bus
transaction and touches no memory and no device (70_reset R280, R281), nor what is pending outside (10_state R38). -/
def resetBlock (s : State) : State :=
  { s with
      fsm_state := .idle
      epc_q := Config.resetWord s.draws 0
      tval_q := Config.resetWord s.draws 1
      cause_q := Config.resetWord s.draws 2
      hartid_q := Config.resetWord s.draws 3
      status_q := Config.resetWord s.draws 4
      frame_q := Config.resetWord s.draws 5
      is_async_q := Config.resetBit s.draws
      cnum_q := Config.resetCnum s.draws
      class_q := Config.resetClass s.draws
      resume_q := Config.resetWord s.draws 6
      now_q := Config.resetWord s.draws 7
      diag_q := []
      halted_q := false
      undef_q := false
      undef_reason := none }

/-- The addresses of an `n`-byte access from `addr` upward, modulo 2^64. -/
def touched (addr : Word) (n : Nat) : List Nat := (List.range n).map (fun k => (addr + BitVec.ofNat 64 k).toNat)

/-- Some byte of the access lies in the region. -/
def touches (r : Region) (addr : Word) (n : Nat) : Bool := (touched addr n).any r.holds

/-- The hart breaks duty (e) of 60_exceptions R250. -/
def hartBreaksBusy (who : Agent) (s : State) : Bool := who == .hart && isBusy s.fsm_state

/-- The device write that an access is, of those to which 20_memory R66 gives an effect: at the device's address, with
the width of R64. -/
def deviceWriteAt (p : Params) (addr : Word) (size : Size) : Option Target :=
  if addr = p.uart_base ∧ size = .b1 then some .uart
  else if addr = p.mtimecmp_addr ∧ size = .b8 then some .mtimecmp
  else if addr = p.halt_addr ∧ size = p.halt_width then some .halt
  else none

/-- An agent outside the block stores: to a device, with the effect 20_memory R66 gives the write whoever makes it (R74,
R271), or to memory. Breaches of the entry contract have no meaning (60_exceptions R250, R263; 70_reset R296;
log 18), and any other access to a device window is refused (20_memory R80). -/
def outsideStore (who : Agent) (addr : Word) (size : Size) (v : Word) (s : State) : Out :=
  if hartBreaksBusy who s then .refused .hartAccessWhileBusy
  else
    match deviceWriteAt s.cfg addr size with
    | some t => .next (deviceWrite t (lowBytes (sizeBytes size) v) s)
    | none =>
      if (deviceRegions s.cfg).any (fun r => touches r addr (sizeBytes size)) then .refused .outsideStoreToDevice
      else if frameLive s.fsm_state && touches (frameRegion s.frame_q) addr (sizeBytes size) then
        .refused .storeIntoLiveFrame
      else .next { s with mem := memWrite s.mem addr (sizeBytes size) v }

/-- Software outside the block writes the compare register, for example the first deadline (70_reset R287 step 6): the
8-byte store at its address. -/
def outsideCompare (who : Agent) (deadline : Word) (s : State) : Out :=
  outsideStore who s.cfg.mtimecmp_addr .b8 deadline s

/-- The platform moves the time counter (20_memory R75). -/
def platformTime (now : Word) (s : State) : State := { s with mtime := now }

/-- The channel's receive registers change (20_memory R72). -/
def platformReceive (status data : Byte) (s : State) : State := { s with uart_status := status, uart_data := data }

/-- An interrupt source stays pending, or is cleared (70_reset R290). One source is held at a time, and this one replaces
the one before. How many stay uncleared at once, and which is re-presented, the spec leaves open (60_exceptions
R248). DESIGN CHOICE, unsafe for claims about several pending sources (log 25). -/
def platformPend (source : Option TrapRequest) (s : State) : State := { s with uncleared := source }

/-! ## Device contracts -/

/-- The byte a transaction hands to the channel, if it is a write to the channel answered ok (20_memory R70). -/
def transmitted : BusOp → Option Byte
  | .write .uart _ _ v => some (v.setWidth 8)
  | .write .mtime _ _ _ | .write .mtimecmp _ _ _ | .write .halt _ _ _ | .write .frame _ _ _ => none
  | .read _ _ _ _ | .writeError _ _ _ _ | .readError _ _ _ => none

/-- The bytes the block has written to the channel, in order (20_memory R71). -/
def uartWritten (s : State) : List Byte := s.bus.filterMap transmitted

/-- What the channel may have put out: any subsequence, in order, of the bytes written to it (20_memory R70). -/
def uartMayOutput (s : State) (out : List Byte) : Bool := out.isSublist s.uart_tx

/-- A transaction is a halt write answered ok (20_memory R76). -/
def isHaltWrite : BusOp → Bool
  | .write .halt _ _ _ => true
  | .write .uart _ _ _ | .write .mtime _ _ _ | .write .mtimecmp _ _ _ | .write .frame _ _ _ => false
  | .read _ _ _ _ | .writeError _ _ _ _ | .readError _ _ _ => false

/-- How often this block has written the sentinel to the halt device (44_diag_and_halt R224). -/
def haltWrites (s : State) : Nat := s.bus.countP isHaltWrite

/-- The value a halt write hands to the halt device. -/
def signalled : BusOp → Option Word
  | .write .halt _ _ v => some v
  | .write .uart _ _ _ | .write .mtime _ _ _ | .write .mtimecmp _ _ _ | .write .frame _ _ _ => none
  | .read _ _ _ _ | .writeError _ _ _ _ | .readError _ _ _ => none

/-- How often the halt device has signalled termination: the writes of `HALT_VALUE` it saw (20_memory R66, R76). -/
def terminationSignals (s : State) : Nat :=
  s.halt_seen.count (lowBytes (sizeBytes s.cfg.halt_width) s.cfg.halt_value)

/-- `read_nonblocking()`, the receive contract used by the out-of-scope service loop and by no rule of the block
(20_memory R72, R73): no data while the ready bit is clear, else the byte at the base address (log 24). -/
def readNonblocking (s : State) : Option Byte :=
  if s.uart_status &&& s.cfg.rx_ready_mask == 0 then none else some s.uart_data

end Sys2Proof.Machine
end

