-- ==== Sys2Proof/Machine/Trace.lean ====
section
/-! DEFINITION. The trace notation (30_encoding R116, R117): input lines with their defaults, and the output events of one
step, read off the state before and after it. -/

namespace Sys2Proof.Machine

/-- The frame of a `TRAP` line that names none (30_encoding R116). -/
def traceFrame : Word := 0x80100000

/-- `TRAP epc=… cause=…`, the other fields omitted (30_encoding R116). -/
def trapLine (epc cause : Word) : TrapRequest := ⟨epc, 0, cause, 0, 0, traceFrame⟩

/-- `INT n epc=…` (30_encoding R117). -/
def intLine (n epc : Word) : TrapRequest := trapLine epc (0x8000000000000000 ||| n)

/-- `EXC n epc=…` (30_encoding R117). -/
def excLine (n epc : Word) : TrapRequest := trapLine epc n

/-- A zero at each of the `n` addresses from `a` on. -/
def zeroCells (a n : Nat) : List Host.Cell :=
  match n with
  | 0 => []
  | n + 1 => (a, 0) :: zeroCells (a + 1) n

/-- The memory with a frame stored as zeros: what duty (b) of the entry contract asks before a `TRAP` line. -/
def storeZeroFrame (m : List Host.Cell) (frame : Word) : List Host.Cell :=
  m.filter (fun c => decide (c.1 < frame.toNat)) ++
    (zeroCells frame.toNat (min frameSize (2 ^ 64 - frame.toNat)) ++
      m.filter (fun c => decide (frame.toNat + frameSize ≤ c.1)))

/-- The input that presents a request for one step (10_state R41). -/
def presents (r : TrapRequest) : Input := .tick ⟨some r, false, false⟩

/-- `ACK`: `resume_ready_i = 1` for one step (30_encoding R116). -/
def ack : Input := .tick ⟨none, true, false⟩

/-- The output events of 30_encoding R116. A `DIAG` line stands for `w` events at `UART_BASE`. -/
inductive OutEvent where
  | w (bytes : Nat) (addr v : Word)
  | r (bytes : Nat) (addr v : Word)
  | resume (pc : Word)
  | halted
  | undef
  | acc (v : Word)
  | accErr (reason : FrameFault)
  deriving DecidableEq, Repr

/-- The event of a transaction; one answered `error` has no line of its own. -/
def busEvent : BusOp → Option OutEvent
  | .write _ a n v => some (.w n a v)
  | .read _ a n v => some (.r n a v)
  | .writeError _ _ _ _ | .readError _ _ _ => none

/-- The event of an accessor answer. -/
def accEvent : Option AccAnswer → List OutEvent
  | some (.data v) => [.acc v]
  | some (.error r) => [.accErr r]
  | none => []

/-- The event of entering a state. -/
def stateEvent (before after : State) : List OutEvent :=
  if before.fsm_state = after.fsm_state then []
  else
    match after.fsm_state with
    | .resume => [.resume after.resume_q]
    | .halted => [.halted]
    | .undef => [.undef]
    | .idle | .decode | .log | .timerRead | .timerWrite | .panicLog | .haltWrite => []

/-- The output events of the step from `before` to `after`, in order. -/
def outputEvents (before after : State) : List OutEvent :=
  (after.bus.drop before.bus.length).filterMap busEvent ++ accEvent after.acc_answer ++ stateEvent before after

end Sys2Proof.Machine
end

