-- ==== Sys2Proof/Machine/Fetch.lean ====
section
/-! DEFINITION. Which operation a step runs, and what a step does with each input. The block fetches no instructions
(20_memory R78): the operation comes from the presented cause word, from the latched one, or from the accessor offset. -/

namespace Sys2Proof.Machine

/-- The cause operation of an FSM step: in IDLE the one the presented cause word selects, in DECODE the one `cause_q`
selects, in the later busy states the one `class_q` names (log 20); none while IDLE waits, and none in HALTED and UNDEF. -/
def currentOp (s : State) : Option Instr :=
  match s.fsm_state with
  | .idle => (signals s).trap.map (fun r => decodeCause r.cause)
  | .decode => some (decodeCause s.cause_q)
  | .log | .timerRead | .timerWrite | .resume | .panicLog | .haltWrite => some (Instr.ofClass s.class_q s.cause_q)
  | .halted => none
  | .undef => none

/-- One FSM transition. With no operation the block keeps every register (30_encoding R101; 44 R223; 60 R262). -/
def fsmTransition (s : State) : Out :=
  match currentOp s with
  | some i => exec i s
  | none => .next s

/-- One accessor request: the operation the offset selects, or the answer to an invalid offset (30_encoding R107). -/
def accessorRequest (off : BitVec 10) (s : State) : Out :=
  match decodeOffset off with
  | .ok i => exec i s
  | .error _ => accessorRead off s

/-- What one step does, by the head input; with no input left the signals are those of `pendingSignals` (log 2). -/
def takeInput (s : State) : Out :=
  match s.inputs with
  | [] => fsmTransition s
  | .tick _ :: _ => fsmTransition s
  | .read off _ :: _ => accessorRequest off s
  | .reset :: _ => .next (resetBlock s)
  | .time now :: _ => .next (platformTime now s)
  | .compare who deadline :: _ => outsideCompare who deadline s
  | .receive status data :: _ => .next (platformReceive status data s)
  | .store who addr size v :: _ => outsideStore who addr size v s
  | .pend source :: _ => .next (platformPend source s)

/-- Before a step acts: `acc_done_o` falls (43_frame_accessor R195). -/
def beginStep (s : State) : State := { s with acc_answer := none }

/-- After a step: its input is used up, and the free values are drawn anew (log 2, log 7). -/
def endStep (s : State) : State := { s with inputs := s.inputs.tail, draws := s.draws + 1 }

/-- Apply a function to the next state of an outcome. -/
def mapNext (f : State → State) : Out → Out
  | .next s => .next (f s)
  | .fault r => .fault r
  | .refused r => .refused r

/-- The state in which the next step runs the operation of a table row: the request (or the accessor request)
presented first; where the row is a cause word, the block waits in IDLE and the request's frame is stored (log 3). -/
def placeTableWord (s : State) (nbits w : Nat) : State :=
  if nbits ≤ 16 then
    if w < 1024 then { s with inputs := .read (BitVec.ofNat 10 w) false :: s.inputs } else s
  else
    { s with
        fsm_state := .idle
        mem := if frameIsStored s.mem traceFrame then s.mem else storeZeroFrame s.mem traceFrame
        inputs := presents (trapLine 0 (BitVec.ofNat 64 w)) :: s.inputs }

end Sys2Proof.Machine
end

