-- ==== Sys2Proof/Machine/Step.lean ====
section
/-! DEFINITION. One step of the machine (00_scope R9, R10), and where a table row's word is placed for it. -/

namespace Sys2Proof.Machine

/-- One step. An ill-formed instance is not built (20_memory R63, R67; log 13). -/
def step (s : State) : Host.Outcome State Fault Refusal :=
  if instanceWf s.cfg then mapNext endStep (takeInput (beginStep s)) else .refused .illFormedInstance

/-- `s` with a table row's word placed where the next step takes its operation from (log 3). -/
def State.withFetchWord (s : State) (nbits w : Nat) : State := placeTableWord s nbits w

end Sys2Proof.Machine
end

