-- ==== Sys2Proof/Machine/Flags.lean ====
section
/-! DEFINITION. The output signals, computed from the state (10_state R40, R43, R47, R48). The block has no condition
codes; its only flags are `is_async_q`, `halted_q` and `undef_q` (10_state R37). -/

namespace Sys2Proof.Machine

/-- `trap_ready_o`: 1 exactly in IDLE (10_state R40). -/
def trap_ready_o (s : State) : Bool := s.fsm_state == .idle

/-- `busy_o`: 1 in every state except IDLE (10_state R47, 30_encoding R102). -/
def busy_o (s : State) : Bool := s.fsm_state != .idle

/-- `halted_o` (10_state R47). -/
def halted_o (s : State) : Bool := s.halted_q

/-- `undef_o` (10_state R47). -/
def undef_o (s : State) : Bool := s.undef_q

/-- `resume_valid_o`: 1 exactly in RESUME (10_state R43). -/
def resume_valid_o (s : State) : Bool := s.fsm_state == .resume

/-- `resume_pc_o`: `resume_q` in RESUME, unspecified (a free value, log 8) elsewhere (10_state R43). -/
def resume_pc_o (s : State) : Word :=
  if s.fsm_state = .resume then s.resume_q else Config.resumePcOther s.draws

/-- `acc_done_o`: the last step answered an accessor request (43_frame_accessor R195). -/
def acc_done_o (s : State) : Bool := s.acc_answer.isSome

/-- `acc_err_o`: the answer is an error (43_frame_accessor R193, R196). While no answer stands (`acc_done_o = 0`) the spec
gives it no value: a free value. DESIGN CHOICE (log 8). -/
def acc_err_o (s : State) : Bool :=
  match s.acc_answer with
  | some (.error _) => true
  | some (.data _) => false
  | none => Config.accErrOther s.draws

/-- `acc_rdata_o`: the value read, unspecified (a free value, log 8) where there is none (43_frame_accessor R193, R196). -/
def acc_rdata_o (s : State) : Word :=
  match s.acc_answer with
  | some (.data v) => v
  | some (.error _) => Config.accRdataOther s.draws
  | none => Config.accRdataOther s.draws

end Sys2Proof.Machine
end

