-- ==== Sys2Proof/Safety.lean ====
section
/-! DEFINITION. What claims speak of: the block's registers as one value, quiet inputs, the entry contract, and the
invariant of the block. -/

namespace Sys2Proof.Machine

/-- The block registers and nothing else (10_state R20 to R34). -/
structure Block where
  fsm_state  : FsmState
  epc_q      : Word
  tval_q     : Word
  cause_q    : Word
  hartid_q   : Word
  status_q   : Word
  frame_q    : Word
  is_async_q : Bool
  cnum_q     : BitVec 12
  class_q    : TrapClass
  resume_q   : Word
  now_q      : Word
  diag_q     : List Byte
  halted_q   : Bool
  undef_q    : Bool
  deriving DecidableEq, Repr

/-- The block registers of a state. -/
def State.block (s : State) : Block where
  fsm_state  := s.fsm_state
  epc_q      := s.epc_q
  tval_q     := s.tval_q
  cause_q    := s.cause_q
  hartid_q   := s.hartid_q
  status_q   := s.status_q
  frame_q    := s.frame_q
  is_async_q := s.is_async_q
  cnum_q     := s.cnum_q
  class_q    := s.class_q
  resume_q   := s.resume_q
  now_q      := s.now_q
  diag_q     := s.diag_q
  halted_q   := s.halted_q
  undef_q    := s.undef_q

/-- The state's next step is a step of the FSM: a `tick`, or no input left (log 2). -/
def fsmSteps (s : State) : Bool :=
  match s.inputs with
  | [] => true
  | .tick _ :: _ => true
  | .read _ _ :: _ | .reset :: _ | .time _ :: _ | .compare _ _ :: _ | .receive _ _ :: _ => false
  | .store _ _ _ _ :: _ | .pend _ :: _ => false

/-- An FSM step with no request presented and a bus that answers ok: "provided the bus answers" (70_reset R300). -/
def quiet : Input → Bool
  | .tick sig => sig.trap.isNone && !sig.bus_error
  | .read _ _ | .reset | .time _ | .compare _ _ | .receive _ _ | .store _ _ _ _ | .pend _ => false

/-- An input is a RESET. -/
def isReset : Input → Bool
  | .reset => true
  | .tick _ | .read _ _ | .time _ | .compare _ _ | .receive _ _ | .store _ _ _ _ | .pend _ => false

/-- The FSM state issues a bus transaction in its step (20_memory R64). -/
def issuesTransaction (s : State) : Bool :=
  match s.fsm_state with
  | .log | .panicLog => !s.diag_q.isEmpty
  | .timerRead | .timerWrite | .haltWrite => true
  | .idle | .decode | .resume | .halted | .undef => false

/-- The transaction that hands one byte to the diagnostic channel (20_memory R64, R71). -/
def uartOp (p : Params) (b : Byte) : BusOp := .write .uart p.uart_base 1 (b.setWidth 64)

/-- A transaction was answered `error`. -/
def answeredError : BusOp → Bool
  | .writeError _ _ _ _ | .readError _ _ _ => true
  | .write _ _ _ _ | .read _ _ _ _ => false

/-- What a transaction is for. -/
def opTarget : BusOp → Target
  | .write t _ _ _ | .read t _ _ _ | .writeError t _ _ _ | .readError t _ _ => t

/-- A write row of 20_memory R64: its address, width and value. -/
def writeRow (p : Params) (t : Target) (addr : Word) (n : Nat) (v : Word) : Prop :=
  match t with
  | .uart => addr = p.uart_base ∧ n = 1 ∧ v.toNat < 256
  | .mtimecmp => addr = p.mtimecmp_addr ∧ n = 8
  | .halt => addr = p.halt_addr ∧ n = sizeBytes p.halt_width ∧ v = lowBytes n p.halt_value
  | .mtime | .frame => False

/-- A read row of 20_memory R64: its address and width. -/
def readRow (p : Params) (frame : Word) (t : Target) (addr : Word) (n : Nat) : Prop :=
  match t with
  | .mtime => addr = p.mtime_addr ∧ n = 8
  | .frame => n = 8 ∧ ∃ off : BitVec 10, offsetValid off = true ∧ addr = frame + off.setWidth 64
  | .uart | .mtimecmp | .halt => False

/-- A transaction is one of the rows of 20_memory R64. -/
def tableRow64 (p : Params) (frame : Word) : BusOp → Prop
  | .write t a n v | .writeError t a n v => writeRow p t a n v
  | .read t a n _ | .readError t a n => readRow p frame t a n

/-- Where the rows of 20_memory R64 say each transaction is issued. -/
def issuedFrom (s : State) : Target → Prop
  | .uart => s.fsm_state = .log ∨ s.fsm_state = .panicLog
  | .mtime => s.fsm_state = .timerRead
  | .mtimecmp => s.fsm_state = .timerWrite
  | .halt => s.fsm_state = .haltWrite
  | .frame => ∃ off e rest, s.inputs = .read off e :: rest

/-- The halt write: the low HALT_WIDTH bytes of `HALT_VALUE` at HALT_ADDR (44_diag_and_halt R222). -/
def haltOp (p : Params) : BusOp :=
  .write .halt p.halt_addr (sizeBytes p.halt_width) (lowBytes (sizeBytes p.halt_width) p.halt_value)

/-- A transaction is naturally aligned (20_memory R63). -/
def opAligned : BusOp → Prop
  | .write _ a n _ | .writeError _ a n _ | .read _ a n _ | .readError _ a n => a.toNat % n = 0

/-- Every byte of the 536-byte frame that lies in the address space has been stored: duty (b) of 60_exceptions R250. -/
def frameStored (m : List Host.Cell) (frame : Word) : Prop :=
  ∀ k, k < frameSize → frame.toNat + k < 2 ^ 64 → (readByte m (frame.toNat + k)).isSome = true

/-- DECODE has run for the trap in hand. -/
def afterDecode : FsmState → Bool
  | .log | .timerRead | .timerWrite | .resume | .panicLog | .haltWrite | .halted => true
  | .idle | .decode | .undef => false

/-- `diag_q` is empty in this state: it is filled by DECODE and spent before LOG or PANIC_LOG ends. -/
def diagSpent : FsmState → Bool
  | .idle | .decode | .timerRead | .timerWrite | .resume | .haltWrite | .halted => true
  | .log | .panicLog | .undef => false

/-- The class a state may hold: recoverable ones in LOG and RESUME, TIMER alone in its two states, fatal ones on the
panic path (30_encoding R101, R105). -/
def classFits (f : FsmState) (c : TrapClass) : Bool :=
  match f with
  | .log | .resume => tier c == .recoverable
  | .timerRead | .timerWrite => c == .timer
  | .panicLog | .haltWrite | .halted => tier c == .fatal
  | .idle | .decode | .undef => true

/-- What `resume_q` holds after DECODE (30_encoding R105): `epc_q`, and in RESUME `epc_q + 4` for the skipping classes. -/
def resumeOf (f : FsmState) (c : TrapClass) (epc : Word) : Word :=
  if f = .resume ∧ skips c = true then epc + skipBytes else epc

/-- The invariant of the block. -/
structure Inv (s : State) : Prop where
  /-- Memory keeps its canonical form. -/
  memory : Memory.wf s.mem = true
  /-- `halted_q` is set exactly in HALTED (10_state R34). -/
  halted : s.halted_q = (s.fsm_state == .halted)
  /-- `undef_q` is set exactly in UNDEF (10_state R34). -/
  undef : s.undef_q = (s.fsm_state == .undef)
  /-- UNDEF has a reason, and no other state has one (60_exceptions R241). -/
  reason : s.undef_reason.isSome = s.undef_q
  /-- No diagnostic byte is left over (44_diag_and_halt R212, R221). -/
  diag : diagSpent s.fsm_state = true → s.diag_q = []
  /-- The decoded fields are those of `cause_q` (40_cause_decode R120, R122). -/
  decoded : afterDecode s.fsm_state = true →
    s.is_async_q = asyncBit s.cause_q ∧ s.cnum_q = causeNumber s.cause_q ∧ s.class_q = classOfCause s.cause_q
  /-- The class is one the state may hold. -/
  cls : classFits s.fsm_state s.class_q = true
  /-- The resume address (30_encoding R105). -/
  resume : afterDecode s.fsm_state = true → s.resume_q = resumeOf s.fsm_state s.class_q s.epc_q
  /-- A live frame overlaps no device (20_memory R67). -/
  frame : frameLive s.fsm_state = true → frameOverlapsDevice s.cfg s.frame_q = false
  /-- A live frame is wholly stored (60_exceptions R250 (b)). -/
  stored : frameLive s.fsm_state = true → frameStored s.mem s.frame_q

end Sys2Proof.Machine
end

