-- ==== Sys2Proof/Certificates/Slice0/Obligations.lean ====
section
/-! DEFINITION. The statements for the provers. Each docstring names the rule of the spec it formalises. A register, device or
port not named in a `{ s with … }` is unchanged. -/

section

open Sys2Proof Sys2Proof.Machine

/-! ## Encodings -/

/-- Tier 3. Decoding the encoding of any well-formed operation gives it back, with every operand at every value
(30_encoding R90, R92, R106, R107, R112). -/
def Obligations.DecodeEncodeRoundTrip : Prop :=
  ∀ i : Instr, i.wf = true → decode (encode i) = .ok i

/-- Every cause word, and every offset that names a field, is the encoding of the well-formed operation it selects:
no bit of it is dropped (30_encoding R90, R107). -/
def Obligations.EncodeDecodeRoundTrip : Prop :=
  (∀ w : Word, (decodeCause w).wf = true ∧ encode (decodeCause w) = bytesOfWord w 8) ∧
  (∀ (off : BitVec 10) (i : Instr), decodeOffset off = .ok i → i.wf = true ∧ encode i = bytesOfWord (off.setWidth 64) 2)

/-- 30_encoding R110: the two passes. At most one of the ten exact rows matches a word; the word selects that row's
class; with no match it selects the OTHER class of its A bit. -/
def Obligations.EveryCauseWordSelectsExactlyOneClass : Prop :=
  exactRows.length = 10 ∧
  (∀ r ∈ exactRows, r.mask = 0x8000000000000FFF) ∧
  ∀ w : Word,
    (∀ r ∈ exactRows, ∀ q ∈ exactRows, w &&& r.mask = r.matchBits → w &&& q.mask = q.matchBits → r = q) ∧
    (∀ r ∈ exactRows, w &&& r.mask = r.matchBits → selectClass w = r.cls) ∧
    ((∀ r ∈ exactRows, w &&& r.mask ≠ r.matchBits) →
      selectClass w = if w.getLsbD 63 = true then .asyncOther else .syncOther) ∧
    opClass (decodeCause w) = some (selectClass w)

/-- The opcode map (30_encoding R110, R111) and `Classify` (40_cause_decode R122) agree on every cause word. -/
def Obligations.OpcodeMapAgreesWithClassify : Prop :=
  ∀ w : Word, selectClass w = classify (w.getLsbD 63) (w.extractLsb' 0 12)

/-- 30_encoding R91: bits 62:12 take no part in decoding. -/
def Obligations.IgnoredCauseBitsSelectNothing : Prop :=
  (∀ w v : Word, w.getLsbD 63 = v.getLsbD 63 → w.extractLsb' 0 12 = v.extractLsb' 0 12 → selectClass w = selectClass v) ∧
  selectClass 0x0000000000001008 = .ecallU ∧ selectClass 0x800000000000F007 = .timer

/-- Words written out from the tables of 30_encoding R111 and R112 decode to the operations they stand for. -/
def Obligations.SampleWordsDecode : Prop :=
  decodeTableWord 64 0x8000000000000003 = some (.swi 0) ∧
  decodeTableWord 64 0x7FFFFFFFFFFFF009 = some (.ecallS 0x7FFFFFFFFFFFF) ∧
  decodeTableWord 64 0x000000000000000E = some (.syncOther 0 14) ∧
  decodeTableWord 64 0xFFFFFFFFFFFFFFFF = some (.asyncOther 0x7FFFFFFFFFFFF 0xFFF) ∧
  decodeTableWord 16 0x0F8 = some (.frameRegs 31) ∧
  decodeTableWord 16 0x108 = some (.frameFregs 1) ∧
  decodeTableWord 16 0x210 = some .frameHartid ∧
  decodeTableWord 16 0x218 = none ∧
  decodeTableWord 16 0x004 = none ∧
  decodeTableWord 16 0x608 = none

/-- The offsets that name a field are the multiples of 8 below 536 (30_encoding R106, R107). -/
def Obligations.ValidOffsetsAreTheAlignedOnesBelow536 : Prop :=
  ∀ off : BitVec 10, offsetValid off = true ↔ off.toNat % 8 = 0 ∧ off.toNat < 536

/-! ## The step -/

/-- A step runs the decoded operation. When the presented cause word (in IDLE), the latched cause word (in DECODE) or
the requested offset decodes to `i`, the step is `exec i`, with the answer port cleared before it and the input used up
and the draw counter advanced after it; in the later busy states `i` is the operation of `class_q`. -/
def Obligations.StepRunsTheDecodedOperation : Prop :=
  (∀ s : State, (beginStep s).acc_answer = none ∧ { beginStep s with acc_answer := s.acc_answer } = s ∧
    (endStep s).inputs = s.inputs.tail ∧ (endStep s).draws = s.draws + 1 ∧
    { endStep s with inputs := s.inputs, draws := s.draws } = s) ∧
  (∀ (s : State) (sig : Signals) (rest : List Input) (r : TrapRequest) (i : Instr),
    instanceWf s.cfg = true → s.fsm_state = .idle → s.inputs = .tick sig :: rest → sig.trap = some r →
    decodeTableWord 64 r.cause.toNat = some i → step s = mapNext endStep (exec i (beginStep s))) ∧
  (∀ (s : State) (i : Instr),
    instanceWf s.cfg = true → s.fsm_state = .decode → fsmSteps s = true →
    decodeTableWord 64 s.cause_q.toNat = some i → step s = mapNext endStep (exec i (beginStep s))) ∧
  (∀ (s : State), instanceWf s.cfg = true → isBusy s.fsm_state = true → s.fsm_state ≠ .decode → fsmSteps s = true →
    step s = mapNext endStep (exec (Instr.ofClass s.class_q s.cause_q) (beginStep s))) ∧
  (∀ (s : State) (off : BitVec 10) (e : Bool) (rest : List Input) (i : Instr),
    instanceWf s.cfg = true → s.inputs = .read off e :: rest → decodeTableWord 16 off.toNat = some i →
    step s = mapNext endStep (exec i (beginStep s)))

/-- An instance whose addresses are misaligned (20_memory R63) or of whose four regions two overlap (R67) is not built,
and no step of it has a meaning. The refusal by `step` is the model's choice of how not to build it (log 13). -/
def Obligations.IllFormedInstanceIsNotBuilt : Prop :=
  ∀ p : Params,
    (p.mtime_addr.toNat % 8 ≠ 0 ∨ p.mtimecmp_addr.toNat % 8 ≠ 0 ∨ p.halt_addr.toNat % sizeBytes p.halt_width ≠ 0 ∨
      (∃ a, (uartRegion p).holds a = true ∧ (mtimeRegion p).holds a = true) ∨
      (∃ a, (uartRegion p).holds a = true ∧ (mtimecmpRegion p).holds a = true) ∨
      (∃ a, (uartRegion p).holds a = true ∧ (haltRegion p).holds a = true) ∨
      (∃ a, (mtimeRegion p).holds a = true ∧ (mtimecmpRegion p).holds a = true) ∨
      (∃ a, (mtimeRegion p).holds a = true ∧ (haltRegion p).holds a = true) ∨
      (∃ a, (mtimecmpRegion p).holds a = true ∧ (haltRegion p).holds a = true)) →
    buildInstance p = none ∧ ∀ s : State, s.cfg = p → step s = .refused .illFormedInstance

/-- 00_scope R7: no rule changes a parameter at run time, whatever the input. -/
def Obligations.NoStepChangesTheParameters : Prop :=
  ∀ s t : State, step s = .next t → t.cfg = s.cfg

/-! ## IDLE: acceptance -/

/-- 10_state R42. (1) Every cause operation, presented in IDLE with a stored frame clear of the devices, latches the six inputs
and moves to DECODE. (2) No other step but a reset writes those registers. (3) In a busy state the payload of the input
signals has no effect. -/
def Obligations.AcceptanceLatchesTheRequest : Prop :=
  (∀ (i : Instr) (c : TrapClass) (s : State) (r : TrapRequest),
    opClass i = some c → s.fsm_state = .idle → (signals s).trap = some r → frameOverlapsDevice s.cfg r.frame = false →
    frameIsStored s.mem r.frame = true →
    exec i s = .next { s with epc_q := r.epc, tval_q := r.tval, cause_q := r.cause, hartid_q := r.hartid,
                              status_q := r.status, frame_q := r.frame, fsm_state := .decode }) ∧
  (∀ s t : State, step s = .next t → s.inputs.head? ≠ some .reset →
    ¬ (s.fsm_state = .idle ∧ (signals s).trap.isSome = true) →
    t.epc_q = s.epc_q ∧ t.tval_q = s.tval_q ∧ t.cause_q = s.cause_q ∧ t.hartid_q = s.hartid_q ∧
      t.status_q = s.status_q ∧ t.frame_q = s.frame_q) ∧
  (∀ (s : State) (r q : TrapRequest) (ready err : Bool) (rest : List Input), isBusy s.fsm_state = true →
    step { s with inputs := .tick ⟨some r, ready, err⟩ :: rest } =
      step { s with inputs := .tick ⟨some q, ready, err⟩ :: rest })

/-- In IDLE with no request presented, every cause operation and every FSM step keep the registers, and nothing is issued
(10_state R41, 30_encoding R101). -/
def Obligations.IdleWaitsForARequest : Prop :=
  (∀ (i : Instr) (c : TrapClass) (s : State), opClass i = some c → s.fsm_state = .idle → (signals s).trap = none →
    exec i s = .next s) ∧
  (∀ s : State, instanceWf s.cfg = true → s.fsm_state = .idle → fsmSteps s = true → (signals s).trap = none →
    step s = .next (endStep (beginStep s)))

/-- A request whose frame region meets a device window is given no meaning (20_memory R67, 60_exceptions R263): every cause
operation refuses it by name, in IDLE, and exactly such requests. The refusal is the model's form for it (log 12). -/
def Obligations.FrameOverDeviceHasNoMeaning : Prop :=
  ∀ (i : Instr) (c : TrapClass) (s : State) (r : TrapRequest),
    opClass i = some c → s.fsm_state = .idle → (signals s).trap = some r →
    (exec i s = .refused .frameOverlapsDevice ↔
      ∃ g ∈ deviceRegions s.cfg, ¬ (g.base + g.size ≤ r.frame.toNat ∨ r.frame.toNat + 536 ≤ g.base))

/-- A request whose frame the entry sequence has not wholly written (60_exceptions R250 (b)) is given no meaning (R263):
every cause operation refuses it by name, in IDLE, and exactly such requests among those clear of the devices. The
refusal, and asking only the bytes below the top of the space, are the model's form for it (log 23). -/
def Obligations.UnstoredFrameHasNoMeaning : Prop :=
  ∀ (i : Instr) (c : TrapClass) (s : State) (r : TrapRequest),
    opClass i = some c → s.fsm_state = .idle → (signals s).trap = some r → Memory.wf s.mem = true →
    frameOverlapsDevice s.cfg r.frame = false →
    (exec i s = .refused .frameNotStored ↔
      ∃ k, k < 536 ∧ r.frame.toNat + k < 2 ^ 64 ∧ readByte s.mem (r.frame.toNat + k) = none)

/-! ## DECODE -/

/-- DECODE of the eight recoverable operations SWI, TIMER, EXT, ECALL_U, ECALL_S, IPF, LPF, SPF (40_cause_decode R120 to
R123): the message is a free list (log 7). -/
def Obligations.DecodeOfRecoverableOperations : Prop :=
  ∀ (i : Instr) (c : TrapClass) (s : State), opClass i = some c →
    c ∈ [TrapClass.swi, .timer, .ext, .ecallU, .ecallS, .ipf, .lpf, .spf] →
    s.fsm_state = .decode → (signals s).trap = none →
    exec i s = .next { s with
      is_async_q := s.cause_q.getLsbD 63
      cnum_q := s.cause_q.extractLsb' 0 12
      class_q := c
      resume_q := s.epc_q
      diag_q := Config.diagBytes s.draws c s.epc_q s.tval_q s.cause_q s.hartid_q
      fsm_state := .log }

/-- DECODE of the four fatal operations ILLEGAL, ECALL_M, ASYNC_OTHER, SYNC_OTHER (40_cause_decode R120 to R123,
44_diag_and_halt R220): the panic record is a free list (log 7). -/
def Obligations.DecodeOfFatalOperations : Prop :=
  ∀ (i : Instr) (c : TrapClass) (s : State), opClass i = some c →
    c ∈ [TrapClass.illegal, .ecallM, .asyncOther, .syncOther] →
    s.fsm_state = .decode → (signals s).trap = none →
    exec i s = .next { s with
      is_async_q := s.cause_q.getLsbD 63
      cnum_q := s.cause_q.extractLsb' 0 12
      class_q := c
      resume_q := s.epc_q
      diag_q := Config.panicBytes s.draws c s.epc_q s.tval_q s.cause_q s.hartid_q
      fsm_state := .panicLog }

/-- 40_cause_decode R122 (the fields and the resume address are those of R120 and R121): an undisturbed DECODE step
classifies the latched cause by the table of R122, for every cause word, and touches no device. -/
def Obligations.DecodeStepClassifiesTheCause : Prop :=
  ∀ s : State, instanceWf s.cfg = true → s.fsm_state = .decode → fsmSteps s = true → (signals s).trap = none →
    ∃ t : State, step s = .next t ∧
      t.is_async_q = s.cause_q.getLsbD 63 ∧ t.cnum_q.setWidth 64 = s.cause_q &&& 0xFFF ∧ t.resume_q = s.epc_q ∧
      (s.cause_q.getLsbD 63 = true →
        (t.cnum_q = 0x003 → t.class_q = .swi) ∧ (t.cnum_q = 0x007 → t.class_q = .timer) ∧
        (t.cnum_q = 0x00B → t.class_q = .ext) ∧
        (t.cnum_q ≠ 0x003 → t.cnum_q ≠ 0x007 → t.cnum_q ≠ 0x00B → t.class_q = .asyncOther)) ∧
      (s.cause_q.getLsbD 63 = false →
        (t.cnum_q = 0x002 → t.class_q = .illegal) ∧ (t.cnum_q = 0x008 → t.class_q = .ecallU) ∧
        (t.cnum_q = 0x009 → t.class_q = .ecallS) ∧ (t.cnum_q = 0x00B → t.class_q = .ecallM) ∧
        (t.cnum_q = 0x00C → t.class_q = .ipf) ∧ (t.cnum_q = 0x00D → t.class_q = .lpf) ∧
        (t.cnum_q = 0x00F → t.class_q = .spf) ∧
        (t.cnum_q ≠ 0x002 → t.cnum_q ≠ 0x008 → t.cnum_q ≠ 0x009 → t.cnum_q ≠ 0x00B → t.cnum_q ≠ 0x00C →
          t.cnum_q ≠ 0x00D → t.cnum_q ≠ 0x00F → t.class_q = .syncOther)) ∧
      t.bus = s.bus ∧ t.mem = s.mem ∧ t.mtimecmp = s.mtimecmp

/-! ## LOG and PANIC_LOG -/

/-- 44_diag_and_halt R211, for every cause operation: LOG hands the head byte to the channel, untransformed, and removes
it; a bus error is UNDEF; a nested request is UNDEF with no byte written (60_exceptions R262). That a byte answered
`error` reaches no channel, and that the record keeps it, are the model's (log 16); so is the reason field (log 17). -/
def Obligations.LogWritesTheHeadByte : Prop :=
  ∀ (i : Instr) (c : TrapClass) (s : State) (b : Byte) (bs : List Byte),
    opClass i = some c → s.fsm_state = .log → s.diag_q = b :: bs →
    ((signals s).trap = none → (signals s).bus_error = false →
      exec i s = .next { s with diag_q := bs, uart_tx := s.uart_tx ++ [b],
                                bus := s.bus ++ [.write .uart s.cfg.uart_base 1 (b.setWidth 64)] }) ∧
    ((signals s).trap = none → (signals s).bus_error = true →
      exec i s = .next { s with undef_q := true, fsm_state := .undef, undef_reason := some .busError,
                                bus := s.bus ++ [.writeError .uart s.cfg.uart_base 1 (b.setWidth 64)] }) ∧
    ((signals s).trap.isSome = true →
      exec i s = .next { s with undef_q := true, fsm_state := .undef, undef_reason := some .nested })

/-- The end of LOG (44_diag_and_halt R212, 42_sync_dispatch R162, 30_encoding R105) of the eight recoverable operations:
SWI and EXT keep `resume_q`; TIMER goes to TIMER_READ; ECALL_U, ECALL_S, IPF, LPF and SPF add 4 modulo 2^64.
Nothing else changes, and no transaction is issued. -/
def Obligations.LogEndDoesTheClassAction : Prop :=
  ∀ (s : State), s.fsm_state = .log → s.diag_q = [] → (signals s).trap = none →
    (∀ u, exec (.swi u) s = .next { s with fsm_state := .resume }) ∧
    (∀ u, exec (.ext u) s = .next { s with fsm_state := .resume }) ∧
    (∀ u, exec (.timer u) s = .next { s with fsm_state := .timerRead }) ∧
    (∀ u, exec (.ecallU u) s = .next { s with resume_q := s.resume_q + 4, fsm_state := .resume }) ∧
    (∀ u, exec (.ecallS u) s = .next { s with resume_q := s.resume_q + 4, fsm_state := .resume }) ∧
    (∀ u, exec (.ipf u) s = .next { s with resume_q := s.resume_q + 4, fsm_state := .resume }) ∧
    (∀ u, exec (.lpf u) s = .next { s with resume_q := s.resume_q + 4, fsm_state := .resume }) ∧
    (∀ u, exec (.spf u) s = .next { s with resume_q := s.resume_q + 4, fsm_state := .resume })

/-- 44_diag_and_halt R212, at the step: the LOG end goes by `class_q`, whatever state the block is in. -/
def Obligations.LogEndStepGoesByTheClassRegister : Prop :=
  ∀ s : State, instanceWf s.cfg = true → s.fsm_state = .log → s.diag_q = [] → fsmSteps s = true →
    (signals s).trap = none →
    ∃ t : State, step s = .next t ∧
      (s.class_q ∈ [TrapClass.ecallU, .ecallS, .ipf, .lpf, .spf] → t.resume_q = s.resume_q + 4) ∧
      (s.class_q ∉ [TrapClass.ecallU, .ecallS, .ipf, .lpf, .spf] → t.resume_q = s.resume_q) ∧
      (s.class_q = .timer → t.fsm_state = .timerRead) ∧ (s.class_q ≠ .timer → t.fsm_state = .resume) ∧
      t.bus = s.bus ∧ t.class_q = s.class_q ∧
      (Inv s → s.class_q = .swi ∨ s.class_q = .ext → t.resume_q = s.epc_q)

/-- 44_diag_and_halt R221, for every cause operation: PANIC_LOG writes the record byte by byte, and only then moves to
HALT_WRITE, in a step with no transaction; a bus error or a nested request is UNDEF (60_exceptions R262). That a byte
answered `error` reaches no channel, and that the record keeps it, are the model's (log 16); so is the reason field
(log 17). -/
def Obligations.PanicLogWritesTheRecord : Prop :=
  ∀ (i : Instr) (c : TrapClass) (s : State), opClass i = some c → s.fsm_state = .panicLog →
    (∀ b bs, s.diag_q = b :: bs → (signals s).trap = none → (signals s).bus_error = false →
      exec i s = .next { s with diag_q := bs, uart_tx := s.uart_tx ++ [b],
                                bus := s.bus ++ [.write .uart s.cfg.uart_base 1 (b.setWidth 64)] }) ∧
    (∀ b bs, s.diag_q = b :: bs → (signals s).trap = none → (signals s).bus_error = true →
      exec i s = .next { s with undef_q := true, fsm_state := .undef, undef_reason := some .busError,
                                bus := s.bus ++ [.writeError .uart s.cfg.uart_base 1 (b.setWidth 64)] }) ∧
    (s.diag_q = [] → (signals s).trap = none → exec i s = .next { s with fsm_state := .haltWrite }) ∧
    ((signals s).trap.isSome = true →
      exec i s = .next { s with undef_q := true, fsm_state := .undef, undef_reason := some .nested })

/-- 20_memory R71: a byte of `diag_q` is written exactly once, in order, untransformed: in LOG and PANIC_LOG the bytes
written followed by the bytes left stay the same list, unless the step enters UNDEF; no other step but a reset
touches what was written or what is left, except DECODE, which draws the list. -/
def Obligations.DiagnosticBytesAreWrittenOnceInOrder : Prop :=
  ∀ s t : State, step s = .next t →
    ((s.fsm_state = .log ∨ s.fsm_state = .panicLog) → s.inputs.head? ≠ some .reset → t.fsm_state ≠ .undef →
      uartWritten t ++ t.diag_q = uartWritten s ++ s.diag_q) ∧
    (s.fsm_state ≠ .log → s.fsm_state ≠ .panicLog → uartWritten t = uartWritten s) ∧
    (uartWritten t = uartWritten s ∨
      ∃ b, s.diag_q = b :: t.diag_q ∧ uartWritten t = uartWritten s ++ [b] ∧ t.bus = s.bus ++ [uartOp s.cfg b])

/-! ## TIMER -/

/-- TIMER's two bus steps (41_async_dispatch R142, R143; 20_memory R64): one 8-byte read of the counter into `now_q`, then
one 8-byte write of `now_q + 10_000_000` modulo 2^64 to the compare register. -/
def Obligations.TimerReadsTheCounterThenRearms : Prop :=
  tick.toNat = 10000000 ∧
  ∀ (u : BitVec 51) (s : State), (signals s).trap = none → (signals s).bus_error = false →
    (s.fsm_state = .timerRead →
      exec (.timer u) s = .next { s with now_q := s.mtime, fsm_state := .timerWrite,
                                         bus := s.bus ++ [.read .mtime s.cfg.mtime_addr 8 s.mtime] }) ∧
    (s.fsm_state = .timerWrite →
      exec (.timer u) s = .next { s with
        mtimecmp := s.now_q + tick, fsm_state := .resume,
        bus := s.bus ++ [.write .mtimecmp s.cfg.mtimecmp_addr 8 (s.now_q + tick)] })

/-- 41_async_dispatch R147 and 60_exceptions R262: the block writes the compare register in TIMER_WRITE, with
`now_q + TICK`, and on no other path, a reset included; a TIMER trap enters RESUME only by that write, and an
undisturbed TIMER_WRITE makes it. That a write answered `error` leaves the register as it was is the model's
inference (log 16). -/
def Obligations.OnlyTimerWriteWritesTheCompareRegister : Prop :=
  tick.toNat = 10000000 ∧
  (∀ s t : State, step s = .next t → (∀ who d, s.inputs.head? ≠ some (.compare who d)) →
    (∀ who v, s.inputs.head? ≠ some (.store who s.cfg.mtimecmp_addr .b8 v)) →
    (t.mtimecmp = s.mtimecmp ∧
      ∀ addr n v, BusOp.write .mtimecmp addr n v ∉ t.bus.drop s.bus.length) ∨
    (s.fsm_state = .timerWrite ∧ fsmSteps s = true ∧ t.fsm_state = .resume ∧ t.mtimecmp = s.now_q + tick ∧
      t.bus = s.bus ++ [.write .mtimecmp s.cfg.mtimecmp_addr 8 (s.now_q + tick)])) ∧
  (∀ s t : State, step s = .next t → s.class_q = .timer → s.fsm_state ≠ .resume → t.fsm_state = .resume →
    s.fsm_state = .timerWrite ∧ t.mtimecmp = s.now_q + tick) ∧
  (∀ s : State, instanceWf s.cfg = true → s.fsm_state = .timerWrite → fsmSteps s = true → (signals s).trap = none →
    (signals s).bus_error = false → ∃ t : State, step s = .next t ∧ t.mtimecmp = s.now_q + tick)

/-- 70_reset R291: when `now_q > 2^64 - 1 - TICK` the sum wraps and the compare value lies below the counter value read;
otherwise it lies TICK above it. -/
def Obligations.WrappedDeadlineLiesBelowTheCounter : Prop :=
  ∀ (u : BitVec 51) (s t : State), s.fsm_state = .timerWrite → (signals s).trap = none →
    (signals s).bus_error = false → exec (.timer u) s = .next t →
    (s.now_q.toNat > 2 ^ 64 - 1 - 10000000 → t.mtimecmp.toNat < s.now_q.toNat) ∧
    (s.now_q.toNat ≤ 2 ^ 64 - 1 - 10000000 → t.mtimecmp.toNat = s.now_q.toNat + 10000000)

/-! ## RESUME and HALT_WRITE -/

/-- 10_state R44, for every cause operation: the resume handshake completes the trap; without it nothing changes, so
`resume_valid_o` stays 1. -/
def Obligations.ResumeHandshakeCompletesTheTrap : Prop :=
  ∀ (i : Instr) (c : TrapClass) (s : State), opClass i = some c → s.fsm_state = .resume → (signals s).trap = none →
    ((signals s).resume_ready = true → exec i s = .next { s with fsm_state := .idle }) ∧
    ((signals s).resume_ready = false → exec i s = .next s ∧ resume_valid_o s = true)

/-- HALT_WRITE, for every cause operation (44_diag_and_halt R222): the sentinel's low HALT_WIDTH bytes are written to
HALT_ADDR, the halt device sees them, `halted_q` is set and the block is HALTED; a bus error leaves `halted_q` alone. -/
def Obligations.HaltWriteSignalsAndHalts : Prop :=
  ∀ (i : Instr) (c : TrapClass) (s : State), opClass i = some c → s.fsm_state = .haltWrite → (signals s).trap = none →
    ((signals s).bus_error = false →
      ∃ v : Word, exec i s = .next { s with
          halted_q := true
          fsm_state := .halted
          halt_seen := s.halt_seen ++ [v]
          bus := s.bus ++ [.write .halt s.cfg.halt_addr (sizeBytes s.cfg.halt_width) v] } ∧
        (∀ k, k < 8 * sizeBytes s.cfg.halt_width → v.getLsbD k = s.cfg.halt_value.getLsbD k) ∧
        (∀ k, 8 * sizeBytes s.cfg.halt_width ≤ k → v.getLsbD k = false)) ∧
    ((signals s).bus_error = true → ∃ t : State, exec i s = .next t ∧ t.fsm_state = .undef ∧ t.undef_q = true ∧
      t.halted_q = s.halted_q)

/-- 44_diag_and_halt R223: in HALTED every cause operation and every FSM step keep every register and issue nothing,
whatever the signals; the ports are low; no input but a reset leaves HALTED. -/
def Obligations.HaltedIsAbsorbing : Prop :=
  ∀ s : State, s.fsm_state = .halted →
    trap_ready_o s = false ∧ resume_valid_o s = false ∧
    (∀ (i : Instr) (c : TrapClass), opClass i = some c → exec i s = .next s) ∧
    (instanceWf s.cfg = true → fsmSteps s = true → step s = .next (endStep (beginStep s))) ∧
    (∀ t : State, step s = .next t → s.inputs.head? ≠ some .reset → t.block = s.block) ∧
    (∀ t : State, step s = .next t → s.inputs.head? = some .reset → t.fsm_state = .idle)

/-! ## UNDEF -/

/-- 60_exceptions R262. (1) A request in a busy state is `raise Undef(Nested)`, before every other rule of the step.
(2) An error answer to the transaction of a step is `raise Undef(BusError)`, and nothing else of the step takes
effect; that it reaches no device, that the record keeps it, and the reason field are the model's (log 16, log 17).
(3) UNDEF is absorbing, its ports are low, and only a reset leaves it. (4) A request in IDLE or in HALTED is not nested.
Each for every cause operation. -/
def Obligations.NestedRequestsAndBusErrorsEnterUndef : Prop :=
  (∀ (i : Instr) (c : TrapClass) (s : State), opClass i = some c → isBusy s.fsm_state = true →
    (signals s).trap.isSome = true →
    exec i s = .next { s with undef_q := true, fsm_state := .undef, undef_reason := some .nested }) ∧
  (∀ (i : Instr) (c : TrapClass) (s : State), opClass i = some c → issuesTransaction s = true → (signals s).trap = none →
    (signals s).bus_error = true →
    ∃ op : BusOp, answeredError op = true ∧
      exec i s = .next { s with undef_q := true, fsm_state := .undef, undef_reason := some .busError,
                                bus := s.bus ++ [op] }) ∧
  (∀ s : State, s.fsm_state = .undef →
    trap_ready_o s = false ∧ resume_valid_o s = false ∧
    (∀ (i : Instr) (c : TrapClass), opClass i = some c → exec i s = .next s) ∧
    (∀ t : State, step s = .next t → s.inputs.head? ≠ some .reset → t.block = s.block ∧ t.bus = s.bus) ∧
    (∀ t : State, step s = .next t → s.inputs.head? = some .reset → t.fsm_state = .idle)) ∧
  (∀ (i : Instr) (c : TrapClass) (s t : State), opClass i = some c → s.fsm_state = .idle ∨ s.fsm_state = .halted →
    exec i s = .next t → t.fsm_state ≠ .undef ∧ t.undef_q = s.undef_q)

/-! ## The frame accessor -/

/-- 43_frame_accessor R193, with the offsets of 30_encoding R106: each of the five operations, on a live, aligned frame
that does not wrap and a bus that answers ok, reads the aligned little-endian word at its offset and answers it.
Where FrameCheck fails, the answer is its reason. Nothing else changes. -/
def Obligations.AccessorAnswersTheStoredField : Prop :=
  (∀ x : BitVec 5, (Instr.frameRegs x).offset? = some (BitVec.ofNat 10 (8 * x.toNat))) ∧
  (∀ x : BitVec 5, (Instr.frameFregs x).offset? = some (BitVec.ofNat 10 (256 + 8 * x.toNat))) ∧
  Instr.frameSatp.offset? = some 512 ∧ Instr.frameTrapStack.offset? = some 520 ∧ Instr.frameHartid.offset? = some 528 ∧
  (∀ (i : Instr) (off : BitVec 10) (s : State) (r : FrameFault), i.offset? = some off → frameCheck s off = some r →
    exec i s = .next { s with acc_answer := some (.error r) }) ∧
  ∀ (i : Instr) (off : BitVec 10) (s : State) (v : Word), i.offset? = some off → frameLive s.fsm_state = true →
    s.frame_q.toNat % 8 = 0 → s.frame_q.toNat + 536 ≤ 2 ^ 64 → accBusError s = false →
    memRead s.mem (s.frame_q + off.setWidth 64) 8 = some v →
    ∃ t : State, exec i s = .next t ∧
      t = { s with acc_answer := some (.data v),
                   bus := s.bus ++ [.read .frame (s.frame_q + off.setWidth 64) 8 v] } ∧
      acc_rdata_o t = v ∧ acc_err_o t = false ∧ acc_done_o t = true

/-- 43_frame_accessor R196: the five checks, in order, for every offset; the first that fails is the reason. Checks 1 to 4
issue no read. No failure changes a register, so none changes the FSM or sets `undef_q`. -/
def Obligations.FrameChecksFailInOrder : Prop :=
  ∀ (s : State) (off : BitVec 10) (e : Bool) (rest : List Input), instanceWf s.cfg = true →
    s.inputs = .read off e :: rest →
    (frameLive s.fsm_state = false →
      step s = .next (endStep { s with acc_answer := some (.error .noFrame) })) ∧
    (frameLive s.fsm_state = true → ¬ (off.toNat % 8 = 0 ∧ off.toNat < 536) →
      step s = .next (endStep { s with acc_answer := some (.error .badOffset) })) ∧
    (frameLive s.fsm_state = true → off.toNat % 8 = 0 → off.toNat < 536 → s.frame_q.toNat % 8 ≠ 0 →
      step s = .next (endStep { s with acc_answer := some (.error .misaligned) })) ∧
    (frameLive s.fsm_state = true → off.toNat % 8 = 0 → off.toNat < 536 → s.frame_q.toNat % 8 = 0 →
      s.frame_q.toNat + 536 > 2 ^ 64 →
      step s = .next (endStep { s with acc_answer := some (.error .wraps) })) ∧
    (frameLive s.fsm_state = true → off.toNat % 8 = 0 → off.toNat < 536 → s.frame_q.toNat % 8 = 0 →
      s.frame_q.toNat + 536 ≤ 2 ^ 64 → e = true →
      step s = .next (endStep { s with acc_answer := some (.error .busError),
                                       bus := s.bus ++ [.readError .frame (s.frame_q + off.setWidth 64) 8] })) ∧
    (∀ (t : State) (r : FrameFault), t.acc_answer = some (.error r) → acc_err_o t = true ∧ acc_done_o t = true)

/-- What an accessor request leaves alone (43_frame_accessor R195, R197): every block register, memory, the devices; it
issues at most one transaction, an 8-byte frame read at the requested field, and is answered for one step only. -/
def Obligations.AccessorReadChangesNoRegister : Prop :=
  (∀ (s t : State) (off : BitVec 10) (e : Bool) (rest : List Input), s.inputs = .read off e :: rest → step s = .next t →
    t.block = s.block ∧ (∀ a, readByte t.mem a = readByte s.mem a) ∧ t.mtime = s.mtime ∧ t.mtimecmp = s.mtimecmp ∧
      t.uart_status = s.uart_status ∧ t.uart_data = s.uart_data ∧ t.uart_tx = s.uart_tx ∧ t.halt_seen = s.halt_seen ∧
      t.uncleared = s.uncleared ∧ t.cfg = s.cfg ∧ t.undef_reason = s.undef_reason ∧ acc_done_o t = true ∧
      (t.bus = s.bus ∨ (∃ v, t.bus = s.bus ++ [.read .frame (fieldAddr s.frame_q off) 8 v]) ∨
        t.bus = s.bus ++ [.readError .frame (fieldAddr s.frame_q off) 8])) ∧
  (∀ (s t : State), step s = .next t → (∀ off e, s.inputs.head? ≠ some (.read off e)) → acc_done_o t = false)

/-- Where an accessor operation stops, and that nothing else faults: a byte of the field that nothing has stored, with
every check passed and the bus answering ok (60_exceptions R250 (b), R263; the fault is the model's choice, log 9). -/
def Obligations.OnlyUnstoredFrameBytesFault : Prop :=
  (∀ (i : Instr) (off : BitVec 10) (s : State), i.offset? = some off → frameCheck s off = none → accBusError s = false →
    memRead s.mem (s.frame_q + off.setWidth 64) 8 = none → exec i s = .fault .frameByteNotStored) ∧
  (∀ (s : State) (f : Fault), step s = .fault f →
    ∃ off rest, s.inputs = .read off false :: rest ∧ frameCheck s off = none ∧
      memRead s.mem (s.frame_q + off.setWidth 64) 8 = none)

/-- No fault can happen: from a state that meets the invariant no step faults, because acceptance asks for the whole frame
(60_exceptions R250 (b)) and no store takes a byte back. The premise is the invariant of the block
(`EveryStepKeepsTheInvariant`). -/
def Obligations.NoStepFaultsUnderTheInvariant : Prop :=
  ∀ (s : State) (f : Fault), Inv s → step s ≠ .fault f

/-- Once the entry sequence has stored the whole frame (60_exceptions R250 (b)), every accessor operation on it answers
data, the little-endian word stored (43_frame_accessor R193, R194). -/
def Obligations.StoredFrameIsAlwaysReadable : Prop :=
  ∀ (i : Instr) (off : BitVec 10) (s : State), i.offset? = some off → frameLive s.fsm_state = true →
    s.frame_q.toNat % 8 = 0 → s.frame_q.toNat + 536 ≤ 2 ^ 64 → accBusError s = false → frameStored s.mem s.frame_q →
    ∃ (t : State) (v : Word), exec i s = .next t ∧ t.acc_answer = some (.data v) ∧
      ∀ k, k < 8 → readByte s.mem (s.frame_q.toNat + off.toNat + k) = some (v.extractLsb' (8 * k) 8)

/-- No rule writes a byte of the frame, and the frame is a snapshot while it is live (43_frame_accessor R194, R197): only an
outside store changes memory, and no step that answers next changes a byte of a live frame. -/
def Obligations.LiveFrameIsNeverWritten : Prop :=
  ∀ s t : State, step s = .next t →
    ((∀ who addr size v, s.inputs.head? ≠ some (.store who addr size v)) →
      ∀ a, readByte t.mem a = readByte s.mem a) ∧
    (frameLive s.fsm_state = true → ∀ a, s.frame_q.toNat ≤ a → a < s.frame_q.toNat + 536 →
      readByte t.mem a = readByte s.mem a)

/-! ## Memory and the bus -/

/-- 20_memory R62, for every width up to 8 bytes and every address: `MemWrite` stores byte `k` of the value at `addr + k`
and touches no other byte, what it wrote is read back, and `MemRead` assembles the bytes little-endian. -/
def Obligations.AccessesAreLittleEndian : Prop :=
  ∀ (m : List Host.Cell) (addr v : Word) (n : Nat), n ≤ 8 →
    (∀ k, k < n →
      readByte (memWrite m addr n v) (addr + BitVec.ofNat 64 k).toNat = some (v.extractLsb' (8 * k) 8)) ∧
    (∀ a, (∀ k, k < n → a ≠ (addr + BitVec.ofNat 64 k).toNat) → readByte (memWrite m addr n v) a = readByte m a) ∧
    memRead (memWrite m addr n v) addr n = some (lowBytes n v) ∧
    (∀ w, memRead m addr n = some w → w.toNat < 2 ^ (8 * n) ∧
      ∀ k, k < n → readByte m (addr + BitVec.ofNat 64 k).toNat = some (w.extractLsb' (8 * k) 8))

/-- 20_memory R64: a step issues at most one transaction, after those before it; that one is a row of R64's table, issued
where the row says. -/
def Obligations.EveryTransactionIsARowOfTheTable : Prop :=
  ∀ s t : State, step s = .next t →
    t.bus = s.bus ∨ ∃ op, t.bus = s.bus ++ [op] ∧ tableRow64 s.cfg s.frame_q op ∧ issuedFrom s (opTarget op)

/-- The block issues every access naturally aligned (20_memory R63). -/
def Obligations.EveryTransactionIsAligned : Prop :=
  ∀ s t : State, step s = .next t → t.bus = s.bus ∨ ∃ op, t.bus = s.bus ++ [op] ∧ opAligned op

/-- The devices receive each write of the block that the bus answered ok exactly once and in order, none merged, repeated
or dropped (20_memory R66, R70, R76): in a step that is no outside store, the channel and the halt device take
what the step added to the record, and nothing else. That a write answered `error` reaches no device is the model's
inference (log 16). -/
def Obligations.DevicesReceiveEachWriteOnce : Prop :=
  ∀ s t : State, step s = .next t → (∀ who addr size v, s.inputs.head? ≠ some (.store who addr size v)) →
    t.uart_tx = s.uart_tx ++ (t.bus.drop s.bus.length).filterMap transmitted ∧
    t.halt_seen = s.halt_seen ++ (t.bus.drop s.bus.length).filterMap signalled

/-- 20_memory R72: the receive path reads data exactly when the one bit of RX_READY_MASK is set in the status byte, and the
data is the byte present at the base address. -/
def Obligations.ReceivePathChecksTheReadyBit : Prop :=
  ∀ s : State, instanceWf s.cfg = true →
    ∃ k, k < 8 ∧ s.cfg.rx_ready_mask = 1#8 <<< k ∧
      (s.uart_status.getLsbD k = false → readNonblocking s = none) ∧
      (s.uart_status.getLsbD k = true → readNonblocking s = some s.uart_data)

/-! ## What a cause operation leaves alone -/

/-- The frame of the twelve cause operations: which FSM state may change which register (10_state R22 to R34); memory, the
counter, the receive registers, the parameters and the answer port change in none. -/
def Obligations.CauseOperationFrame : Prop :=
  ∀ (i : Instr) (c : TrapClass) (s t : State), opClass i = some c → exec i s = .next t →
    (s.fsm_state ≠ .idle → t.epc_q = s.epc_q ∧ t.tval_q = s.tval_q ∧ t.cause_q = s.cause_q ∧
      t.hartid_q = s.hartid_q ∧ t.status_q = s.status_q ∧ t.frame_q = s.frame_q) ∧
    (s.fsm_state ≠ .decode → t.is_async_q = s.is_async_q ∧ t.cnum_q = s.cnum_q ∧ t.class_q = s.class_q) ∧
    (s.fsm_state ≠ .decode → s.fsm_state ≠ .log → t.resume_q = s.resume_q) ∧
    (s.fsm_state ≠ .timerRead → t.now_q = s.now_q) ∧
    (s.fsm_state ≠ .decode → s.fsm_state ≠ .log → s.fsm_state ≠ .panicLog → t.diag_q = s.diag_q) ∧
    (s.fsm_state ≠ .haltWrite → t.halted_q = s.halted_q) ∧
    (t.fsm_state ≠ .undef → t.undef_q = s.undef_q ∧ t.undef_reason = s.undef_reason) ∧
    (s.fsm_state ≠ .timerWrite → t.mtimecmp = s.mtimecmp) ∧
    (s.fsm_state ≠ .log → s.fsm_state ≠ .panicLog → t.uart_tx = s.uart_tx) ∧
    (s.fsm_state ≠ .haltWrite → t.halt_seen = s.halt_seen) ∧
    (issuesTransaction s = false → t.bus = s.bus) ∧
    (∀ a, readByte t.mem a = readByte s.mem a) ∧
    t.mtime = s.mtime ∧ t.uart_status = s.uart_status ∧ t.uart_data = s.uart_data ∧ t.acc_answer = s.acc_answer ∧
    t.cfg = s.cfg ∧ t.inputs = s.inputs ∧ t.uncleared = s.uncleared ∧ t.draws = s.draws

/-- 10_state R26: `status_q` is written at acceptance, and no rule reads it: every operation gives the same outcome whatever
it holds, and outside acceptance leaves it as it was. -/
def Obligations.StatusRegisterIsNeverRead : Prop :=
  (∀ (i : Instr) (s : State) (v : Word), s.fsm_state ≠ .idle ∨ (signals s).trap = none →
    exec i { s with status_q := v } = mapNext (fun t => { t with status_q := v }) (exec i s)) ∧
  (∀ (i : Instr) (c : TrapClass) (s : State) (r : TrapRequest) (v : Word), opClass i = some c → s.fsm_state = .idle →
    (signals s).trap = some r →
    exec i { s with status_q := v } = exec i s ∧ ∀ t : State, exec i s = .next t → t.status_q = r.status)

/-- `tval_q` and `hartid_q` reach nothing but the drawn diagnostic bytes (10_state R23, R25; 42_sync_dispatch R171): outside
acceptance, two states that differ only there step to states that differ only there and in `diag_q`. -/
def Obligations.TvalAndHartidReachOnlyDiagnostics : Prop :=
  ∀ (i : Instr) (s t : State) (v h : Word), s.fsm_state ≠ .idle → exec i s = .next t →
    ∃ d, exec i { s with tval_q := v, hartid_q := h } =
      .next { t with tval_q := v, hartid_q := h, diag_q := d }

/-! ## Reset, outputs, and the outside world -/

/-- 70_reset R281, with the values R280 and 10_state R50 give: a RESET in any state leaves IDLE, an empty list and both flags
0, and touches no device, no memory and no parameter. The other registers are free draws (log 6). -/
def Obligations.ResetEventIssuesNothing : Prop :=
  ∀ (s : State) (rest : List Input), instanceWf s.cfg = true → s.inputs = .reset :: rest →
    ∃ t : State, step s = .next t ∧ t.fsm_state = .idle ∧ t.diag_q = [] ∧ t.halted_q = false ∧ t.undef_q = false ∧
      t.bus = s.bus ∧ t.mtimecmp = s.mtimecmp ∧ t.mtime = s.mtime ∧ t.uart_status = s.uart_status ∧
      t.uart_data = s.uart_data ∧ t.uart_tx = s.uart_tx ∧ t.halt_seen = s.halt_seen ∧ t.uncleared = s.uncleared ∧
      t.cfg = s.cfg ∧ (∀ a, readByte t.mem a = readByte s.mem a)

/-- The outputs (10_state R40, R43, R47): which are 1 in which state, for every state that meets the invariant. -/
def Obligations.OutputsFollowTheState : Prop :=
  ∀ s : State, Inv s →
    (trap_ready_o s = true ↔ s.fsm_state = .idle) ∧ (busy_o s = true ↔ s.fsm_state ≠ .idle) ∧
    (halted_o s = true ↔ s.fsm_state = .halted) ∧ (undef_o s = true ↔ s.fsm_state = .undef) ∧
    (resume_valid_o s = true ↔ s.fsm_state = .resume) ∧ (resume_valid_o s = true → resume_pc_o s = s.resume_q)

/-- Writes to the devices by others than the block (20_memory R66, R70, R74, R75, R76): one byte at UART_BASE is handed to
the channel, eight bytes at MTIMECMP_ADDR are the next deadline, HALT_WIDTH bytes at HALT_ADDR are seen by the halt
device, which signals when they are `HALT_VALUE`'s; nothing else changes. The hart makes none while the block is
busy (60_exceptions R250 (e)). The form of the input is the model's (log 18). -/
def Obligations.OutsideDeviceWritesHaveTheirEffect : Prop :=
  ∀ (s : State) (who : Agent) (v : Word) (rest : List Input), instanceWf s.cfg = true →
    ¬ (who = .hart ∧ isBusy s.fsm_state = true) →
    (s.inputs = .store who s.cfg.uart_base .b1 v :: rest →
      step s = .next (endStep { beginStep s with uart_tx := s.uart_tx ++ [v.setWidth 8] })) ∧
    (s.inputs = .store who s.cfg.mtimecmp_addr .b8 v :: rest →
      step s = .next (endStep { beginStep s with mtimecmp := v })) ∧
    (s.inputs = .compare who v :: rest → step s = .next (endStep { beginStep s with mtimecmp := v })) ∧
    (s.inputs = .store who s.cfg.halt_addr s.cfg.halt_width v :: rest →
      ∃ t : State, step s = .next t ∧
        t = endStep { beginStep s with halt_seen := s.halt_seen ++ [lowBytes (sizeBytes s.cfg.halt_width) v] } ∧
        (lowBytes (sizeBytes s.cfg.halt_width) v = lowBytes (sizeBytes s.cfg.halt_width) s.cfg.halt_value →
          terminationSignals t = terminationSignals s + 1) ∧
        (lowBytes (sizeBytes s.cfg.halt_width) v ≠ lowBytes (sizeBytes s.cfg.halt_width) s.cfg.halt_value →
          terminationSignals t = terminationSignals s))

/-- Other stores from outside (the model's form of 60_exceptions R250 and R263, log 18): one that keeps the entry contract
lands little-endian and changes nothing else; the breaches are refused, each by name, in this order. A store that
meets a device window and is no device write has no effect in the spec, and is refused (20_memory R80). -/
def Obligations.OutsideStoresKeepTheEntryContract : Prop :=
  ∀ (s : State) (who : Agent) (addr : Word) (size : Size) (v : Word) (rest : List Input),
    instanceWf s.cfg = true → s.inputs = .store who addr size v :: rest →
    (who = .hart → isBusy s.fsm_state = true → step s = .refused .hartAccessWhileBusy) ∧
    (¬ (who = .hart ∧ isBusy s.fsm_state = true) → deviceWriteAt s.cfg addr size = none →
      ((∃ g ∈ deviceRegions s.cfg, touches g addr (sizeBytes size) = true) →
        step s = .refused .outsideStoreToDevice) ∧
      ((∀ g ∈ deviceRegions s.cfg, touches g addr (sizeBytes size) = false) →
        (frameLive s.fsm_state = true → touches (frameRegion s.frame_q) addr (sizeBytes size) = true →
          step s = .refused .storeIntoLiveFrame) ∧
        (¬ (frameLive s.fsm_state = true ∧ touches (frameRegion s.frame_q) addr (sizeBytes size) = true) →
          step s = .next (endStep { beginStep s with mem := memWrite s.mem addr (sizeBytes size) v }))))

/-! ## The invariant -/

/-- The state after reset meets the invariant and holds the values 10_state R50 gives. -/
def Obligations.ResetMeetsTheInvariant : Prop :=
  Inv State.reset ∧ State.reset.fsm_state = .idle ∧ State.reset.diag_q = [] ∧ State.reset.halted_q = false ∧
    State.reset.undef_q = false ∧ instanceWf State.reset.cfg = true

/-- Tier 3. Every step, whatever the input, keeps the invariant. -/
def Obligations.EveryStepKeepsTheInvariant : Prop :=
  ∀ s t : State, Inv s → step s = .next t → Inv t

/-- 41_async_dispatch R146 and 42_sync_dispatch R169: what a trap that reaches RESUME presents. The premise is the invariant
of the block (`EveryStepKeepsTheInvariant`). -/
def Obligations.PresentedResumeAddress : Prop :=
  ∀ s : State, Inv s → resume_valid_o s = true →
    (s.cause_q.getLsbD 63 = true → s.cause_q.extractLsb' 0 12 ∈ [3#12, 7#12, 11#12] → resume_pc_o s = s.epc_q) ∧
    (s.cause_q.getLsbD 63 = false → s.cause_q.extractLsb' 0 12 ∈ [8#12, 9#12, 12#12, 13#12, 15#12] →
      resume_pc_o s = s.epc_q + 4)

/-- 41_async_dispatch R148 and 42_sync_dispatch R170: no trap of a fatal cause ever asserts `resume_valid_o`. The premise is
the invariant of the block. -/
def Obligations.FatalCausesNeverResume : Prop :=
  ∀ s : State, Inv s →
    (s.cause_q.getLsbD 63 = true → s.cause_q.extractLsb' 0 12 ∉ [3#12, 7#12, 11#12] → resume_valid_o s = false) ∧
    (s.cause_q.getLsbD 63 = false → s.cause_q.extractLsb' 0 12 ∉ [8#12, 9#12, 12#12, 13#12, 15#12] →
      resume_valid_o s = false)

/-! ## Whole traps -/

/-- 70_reset R300 for SWI, EXT, ECALL_U, ECALL_S, IPF, LPF and SPF: accepted in IDLE and left alone, a trap reaches
RESUME after exactly 3 + d steps, d the length of the drawn message, having written that message and nothing
else, with the resume address of 30_encoding R105. -/
def Obligations.RecoverableTrapReachesResume : Prop :=
  ∀ (s : State) (sig : Signals) (rest : List Input) (r : TrapRequest), instanceWf s.cfg = true → s.fsm_state = .idle →
    s.inputs = .tick sig :: rest → sig.trap = some r → rest.all quiet = true →
    frameOverlapsDevice s.cfg r.frame = false → frameIsStored s.mem r.frame = true →
    classOfCause r.cause ∈ [TrapClass.swi, .ext, .ecallU, .ecallS, .ipf, .lpf, .spf] →
    let msg := Config.diagBytes (s.draws + 1) (classOfCause r.cause) r.epc r.tval r.cause r.hartid
    (∀ k, k < 3 + msg.length → ∃ u : State, Sys2Proof.core.run k s = .next u ∧ u.fsm_state ≠ .resume) ∧
    ∃ t : State, Sys2Proof.core.run (3 + msg.length) s = .next t ∧ t.fsm_state = .resume ∧
      t.epc_q = r.epc ∧ t.frame_q = r.frame ∧ t.class_q = classOfCause r.cause ∧
      (classOfCause r.cause ∈ [TrapClass.swi, .ext] → t.resume_q = r.epc) ∧
      (classOfCause r.cause ∉ [TrapClass.swi, .ext] → t.resume_q = r.epc + 4) ∧
      t.bus = s.bus ++ msg.map (uartOp s.cfg) ∧ t.uart_tx = s.uart_tx ++ msg ∧ t.halt_seen = s.halt_seen ∧
      t.mem = s.mem ∧ t.mtimecmp = s.mtimecmp ∧ t.halted_q = s.halted_q ∧ t.undef_q = s.undef_q

/-- 70_reset R300 and 41_async_dispatch R141 for TIMER: RESUME after exactly 5 + d steps, the message first, then
exactly one counter read and one compare write of that value plus 10_000_000; the resume address is `epc`. -/
def Obligations.TimerTrapReachesResume : Prop :=
  ∀ (s : State) (sig : Signals) (rest : List Input) (r : TrapRequest), instanceWf s.cfg = true → s.fsm_state = .idle →
    s.inputs = .tick sig :: rest → sig.trap = some r → rest.all quiet = true →
    frameOverlapsDevice s.cfg r.frame = false → frameIsStored s.mem r.frame = true → classOfCause r.cause = .timer →
    let msg := Config.diagBytes (s.draws + 1) .timer r.epc r.tval r.cause r.hartid
    tick.toNat = 10000000 ∧
    (∀ k, k < 5 + msg.length → ∃ u : State, Sys2Proof.core.run k s = .next u ∧ u.fsm_state ≠ .resume) ∧
    ∃ t : State, Sys2Proof.core.run (5 + msg.length) s = .next t ∧ t.fsm_state = .resume ∧
      t.resume_q = r.epc ∧ t.now_q = s.mtime ∧ t.mtimecmp = s.mtime + tick ∧
      t.bus = s.bus ++ msg.map (uartOp s.cfg) ++
        [.read .mtime s.cfg.mtime_addr 8 s.mtime, .write .mtimecmp s.cfg.mtimecmp_addr 8 (s.mtime + tick)] ∧
      t.uart_tx = s.uart_tx ++ msg ∧ t.halt_seen = s.halt_seen ∧ t.mem = s.mem ∧ t.halted_q = s.halted_q ∧
      t.undef_q = s.undef_q

/-- 70_reset R300 and 44_diag_and_halt R220 for the four fatal classes: HALTED after exactly 4 + d steps, never
having been in RESUME, the panic record first and then one halt write. -/
def Obligations.FatalTrapReachesHalted : Prop :=
  ∀ (s : State) (sig : Signals) (rest : List Input) (r : TrapRequest), instanceWf s.cfg = true → s.fsm_state = .idle →
    s.inputs = .tick sig :: rest → sig.trap = some r → rest.all quiet = true →
    frameOverlapsDevice s.cfg r.frame = false → frameIsStored s.mem r.frame = true →
    classOfCause r.cause ∈ [TrapClass.illegal, .ecallM, .asyncOther, .syncOther] →
    let rec_ := Config.panicBytes (s.draws + 1) (classOfCause r.cause) r.epc r.tval r.cause r.hartid
    (∀ k, k < 4 + rec_.length → ∃ u : State, Sys2Proof.core.run k s = .next u ∧ u.fsm_state ≠ .halted ∧
      u.fsm_state ≠ .resume) ∧
    ∃ t : State, Sys2Proof.core.run (4 + rec_.length) s = .next t ∧ t.fsm_state = .halted ∧ t.halted_q = true ∧
      t.bus = s.bus ++ rec_.map (uartOp s.cfg) ++
        [.write .halt s.cfg.halt_addr (sizeBytes s.cfg.halt_width)
          (lowBytes (sizeBytes s.cfg.halt_width) s.cfg.halt_value)] ∧
      t.uart_tx = s.uart_tx ++ rec_ ∧
      t.halt_seen = s.halt_seen ++ [lowBytes (sizeBytes s.cfg.halt_width) s.cfg.halt_value] ∧
      t.mem = s.mem ∧ t.mtimecmp = s.mtimecmp ∧ t.undef_q = s.undef_q

/-- 44_diag_and_halt R224: in any run with no reset in it that starts outside HALTED (so in any run from reset), the halt
address is written exactly once if the run reaches HALTED, and never otherwise, and that write is `HALT_VALUE`'s.
A halt write answered `error` counts as not received, which is the model's inference (log 16). -/
def Obligations.SentinelIsWrittenExactlyOnce : Prop :=
  ∀ (n : Nat) (s t : State), s.fsm_state ≠ .halted → s.inputs.all (fun e => !isReset e) = true →
    Sys2Proof.core.run n s = .next t →
    haltWrites t = haltWrites s + (if t.fsm_state = .halted then 1 else 0) ∧
    t.bus.count (haltOp s.cfg) = s.bus.count (haltOp s.cfg) + (if t.fsm_state = .halted then 1 else 0)

/-- 70_reset R290: an uncleared interrupt re-traps without end, a livelock with no fault. (1) The platform makes a source
stay pending, or clears it, and nothing of the block. (2) With an uncleared SWI or EXT source and no other input
left, the run goes on for ever: every step answers next, none enters HALTED or UNDEF, the source stays pending, and
however long the run has been there is a later step that presents the resume at the interrupted address and hands
the block back to IDLE, where the interrupt is taken again. The form of the source, and that one is held at a time,
are the model's (log 2, log 25). -/
def Obligations.UnclearedInterruptRetrapsWithoutEnd : Prop :=
  (∀ (s : State) (o : Option TrapRequest) (rest : List Input), instanceWf s.cfg = true → s.inputs = .pend o :: rest →
    step s = .next (endStep { beginStep s with uncleared := o })) ∧
  ∀ (s : State) (r : TrapRequest), instanceWf s.cfg = true → s.fsm_state = .idle → s.inputs = [] →
    s.uncleared = some r → classOfCause r.cause ∈ [TrapClass.swi, .ext] → frameOverlapsDevice s.cfg r.frame = false →
    frameIsStored s.mem r.frame = true →
    ∀ n, (∃ t : State, Sys2Proof.core.run n s = .next t ∧ t.fsm_state ∈ [FsmState.idle, .decode, .log, .resume] ∧
        t.halted_q = s.halted_q ∧ t.undef_q = s.undef_q ∧ t.uncleared = some r) ∧
      ∃ k, n ≤ k ∧ ∃ t u : State, Sys2Proof.core.run k s = .next t ∧ t.fsm_state = .resume ∧ t.resume_q = r.epc ∧
        Sys2Proof.core.run (k + 1) s = .next u ∧ u.fsm_state = .idle

end
end

