-- ==== Sys2Proof/Laws/State.lean ====
section
/-! SUPPORT. One lemma per field per update of the state, true by unfolding the update once, so that no later proof unfolds a
record update. -/

namespace Sys2Proof.Machine

/-! ## goto -/

@[simp] theorem goto_fsm_state (f : FsmState) (s : State) : (goto f s).fsm_state = f := rfl
@[simp] theorem goto_epc_q (f : FsmState) (s : State) : (goto f s).epc_q = s.epc_q := rfl
@[simp] theorem goto_tval_q (f : FsmState) (s : State) : (goto f s).tval_q = s.tval_q := rfl
@[simp] theorem goto_cause_q (f : FsmState) (s : State) : (goto f s).cause_q = s.cause_q := rfl
@[simp] theorem goto_hartid_q (f : FsmState) (s : State) : (goto f s).hartid_q = s.hartid_q := rfl
@[simp] theorem goto_status_q (f : FsmState) (s : State) : (goto f s).status_q = s.status_q := rfl
@[simp] theorem goto_frame_q (f : FsmState) (s : State) : (goto f s).frame_q = s.frame_q := rfl
@[simp] theorem goto_is_async_q (f : FsmState) (s : State) : (goto f s).is_async_q = s.is_async_q := rfl
@[simp] theorem goto_cnum_q (f : FsmState) (s : State) : (goto f s).cnum_q = s.cnum_q := rfl
@[simp] theorem goto_class_q (f : FsmState) (s : State) : (goto f s).class_q = s.class_q := rfl
@[simp] theorem goto_resume_q (f : FsmState) (s : State) : (goto f s).resume_q = s.resume_q := rfl
@[simp] theorem goto_now_q (f : FsmState) (s : State) : (goto f s).now_q = s.now_q := rfl
@[simp] theorem goto_diag_q (f : FsmState) (s : State) : (goto f s).diag_q = s.diag_q := rfl
@[simp] theorem goto_halted_q (f : FsmState) (s : State) : (goto f s).halted_q = s.halted_q := rfl
@[simp] theorem goto_undef_q (f : FsmState) (s : State) : (goto f s).undef_q = s.undef_q := rfl
@[simp] theorem goto_acc_answer (f : FsmState) (s : State) : (goto f s).acc_answer = s.acc_answer := rfl
@[simp] theorem goto_mem (f : FsmState) (s : State) : (goto f s).mem = s.mem := rfl
@[simp] theorem goto_mtime (f : FsmState) (s : State) : (goto f s).mtime = s.mtime := rfl
@[simp] theorem goto_mtimecmp (f : FsmState) (s : State) : (goto f s).mtimecmp = s.mtimecmp := rfl
@[simp] theorem goto_uart_status (f : FsmState) (s : State) : (goto f s).uart_status = s.uart_status := rfl
@[simp] theorem goto_uart_data (f : FsmState) (s : State) : (goto f s).uart_data = s.uart_data := rfl
@[simp] theorem goto_uart_tx (f : FsmState) (s : State) : (goto f s).uart_tx = s.uart_tx := rfl
@[simp] theorem goto_halt_seen (f : FsmState) (s : State) : (goto f s).halt_seen = s.halt_seen := rfl
@[simp] theorem goto_cfg (f : FsmState) (s : State) : (goto f s).cfg = s.cfg := rfl
@[simp] theorem goto_inputs (f : FsmState) (s : State) : (goto f s).inputs = s.inputs := rfl
@[simp] theorem goto_uncleared (f : FsmState) (s : State) : (goto f s).uncleared = s.uncleared := rfl
@[simp] theorem goto_draws (f : FsmState) (s : State) : (goto f s).draws = s.draws := rfl
@[simp] theorem goto_undef_reason (f : FsmState) (s : State) : (goto f s).undef_reason = s.undef_reason := rfl
@[simp] theorem goto_bus (f : FsmState) (s : State) : (goto f s).bus = s.bus := rfl

/-! ## skip -/

@[simp] theorem skip_fsm_state (s : State) : (skip s).fsm_state = s.fsm_state := rfl
@[simp] theorem skip_epc_q (s : State) : (skip s).epc_q = s.epc_q := rfl
@[simp] theorem skip_tval_q (s : State) : (skip s).tval_q = s.tval_q := rfl
@[simp] theorem skip_cause_q (s : State) : (skip s).cause_q = s.cause_q := rfl
@[simp] theorem skip_hartid_q (s : State) : (skip s).hartid_q = s.hartid_q := rfl
@[simp] theorem skip_status_q (s : State) : (skip s).status_q = s.status_q := rfl
@[simp] theorem skip_frame_q (s : State) : (skip s).frame_q = s.frame_q := rfl
@[simp] theorem skip_is_async_q (s : State) : (skip s).is_async_q = s.is_async_q := rfl
@[simp] theorem skip_cnum_q (s : State) : (skip s).cnum_q = s.cnum_q := rfl
@[simp] theorem skip_class_q (s : State) : (skip s).class_q = s.class_q := rfl
@[simp] theorem skip_resume_q (s : State) : (skip s).resume_q = s.resume_q + skipBytes := rfl
@[simp] theorem skip_now_q (s : State) : (skip s).now_q = s.now_q := rfl
@[simp] theorem skip_diag_q (s : State) : (skip s).diag_q = s.diag_q := rfl
@[simp] theorem skip_halted_q (s : State) : (skip s).halted_q = s.halted_q := rfl
@[simp] theorem skip_undef_q (s : State) : (skip s).undef_q = s.undef_q := rfl
@[simp] theorem skip_acc_answer (s : State) : (skip s).acc_answer = s.acc_answer := rfl
@[simp] theorem skip_mem (s : State) : (skip s).mem = s.mem := rfl
@[simp] theorem skip_mtime (s : State) : (skip s).mtime = s.mtime := rfl
@[simp] theorem skip_mtimecmp (s : State) : (skip s).mtimecmp = s.mtimecmp := rfl
@[simp] theorem skip_uart_status (s : State) : (skip s).uart_status = s.uart_status := rfl
@[simp] theorem skip_uart_data (s : State) : (skip s).uart_data = s.uart_data := rfl
@[simp] theorem skip_uart_tx (s : State) : (skip s).uart_tx = s.uart_tx := rfl
@[simp] theorem skip_halt_seen (s : State) : (skip s).halt_seen = s.halt_seen := rfl
@[simp] theorem skip_cfg (s : State) : (skip s).cfg = s.cfg := rfl
@[simp] theorem skip_inputs (s : State) : (skip s).inputs = s.inputs := rfl
@[simp] theorem skip_uncleared (s : State) : (skip s).uncleared = s.uncleared := rfl
@[simp] theorem skip_draws (s : State) : (skip s).draws = s.draws := rfl
@[simp] theorem skip_undef_reason (s : State) : (skip s).undef_reason = s.undef_reason := rfl
@[simp] theorem skip_bus (s : State) : (skip s).bus = s.bus := rfl

/-! ## raiseUndef -/

@[simp] theorem raiseUndef_fsm_state (r : UndefReason) (s : State) : (raiseUndef r s).fsm_state = .undef := rfl
@[simp] theorem raiseUndef_epc_q (r : UndefReason) (s : State) : (raiseUndef r s).epc_q = s.epc_q := rfl
@[simp] theorem raiseUndef_tval_q (r : UndefReason) (s : State) : (raiseUndef r s).tval_q = s.tval_q := rfl
@[simp] theorem raiseUndef_cause_q (r : UndefReason) (s : State) : (raiseUndef r s).cause_q = s.cause_q := rfl
@[simp] theorem raiseUndef_hartid_q (r : UndefReason) (s : State) : (raiseUndef r s).hartid_q = s.hartid_q := rfl
@[simp] theorem raiseUndef_status_q (r : UndefReason) (s : State) : (raiseUndef r s).status_q = s.status_q := rfl
@[simp] theorem raiseUndef_frame_q (r : UndefReason) (s : State) : (raiseUndef r s).frame_q = s.frame_q := rfl
@[simp] theorem raiseUndef_is_async_q (r : UndefReason) (s : State) : (raiseUndef r s).is_async_q = s.is_async_q := rfl
@[simp] theorem raiseUndef_cnum_q (r : UndefReason) (s : State) : (raiseUndef r s).cnum_q = s.cnum_q := rfl
@[simp] theorem raiseUndef_class_q (r : UndefReason) (s : State) : (raiseUndef r s).class_q = s.class_q := rfl
@[simp] theorem raiseUndef_resume_q (r : UndefReason) (s : State) : (raiseUndef r s).resume_q = s.resume_q := rfl
@[simp] theorem raiseUndef_now_q (r : UndefReason) (s : State) : (raiseUndef r s).now_q = s.now_q := rfl
@[simp] theorem raiseUndef_diag_q (r : UndefReason) (s : State) : (raiseUndef r s).diag_q = s.diag_q := rfl
@[simp] theorem raiseUndef_halted_q (r : UndefReason) (s : State) : (raiseUndef r s).halted_q = s.halted_q := rfl
@[simp] theorem raiseUndef_undef_q (r : UndefReason) (s : State) : (raiseUndef r s).undef_q = true := rfl
@[simp] theorem raiseUndef_acc_answer (r : UndefReason) (s : State) : (raiseUndef r s).acc_answer = s.acc_answer := rfl
@[simp] theorem raiseUndef_mem (r : UndefReason) (s : State) : (raiseUndef r s).mem = s.mem := rfl
@[simp] theorem raiseUndef_mtime (r : UndefReason) (s : State) : (raiseUndef r s).mtime = s.mtime := rfl
@[simp] theorem raiseUndef_mtimecmp (r : UndefReason) (s : State) : (raiseUndef r s).mtimecmp = s.mtimecmp := rfl
@[simp] theorem raiseUndef_uart_status (r : UndefReason) (s : State) : (raiseUndef r s).uart_status = s.uart_status := rfl
@[simp] theorem raiseUndef_uart_data (r : UndefReason) (s : State) : (raiseUndef r s).uart_data = s.uart_data := rfl
@[simp] theorem raiseUndef_uart_tx (r : UndefReason) (s : State) : (raiseUndef r s).uart_tx = s.uart_tx := rfl
@[simp] theorem raiseUndef_halt_seen (r : UndefReason) (s : State) : (raiseUndef r s).halt_seen = s.halt_seen := rfl
@[simp] theorem raiseUndef_cfg (r : UndefReason) (s : State) : (raiseUndef r s).cfg = s.cfg := rfl
@[simp] theorem raiseUndef_inputs (r : UndefReason) (s : State) : (raiseUndef r s).inputs = s.inputs := rfl
@[simp] theorem raiseUndef_uncleared (r : UndefReason) (s : State) : (raiseUndef r s).uncleared = s.uncleared := rfl
@[simp] theorem raiseUndef_draws (r : UndefReason) (s : State) : (raiseUndef r s).draws = s.draws := rfl
@[simp] theorem raiseUndef_undef_reason (r : UndefReason) (s : State) : (raiseUndef r s).undef_reason = some r := rfl
@[simp] theorem raiseUndef_bus (r : UndefReason) (s : State) : (raiseUndef r s).bus = s.bus := rfl

/-! ## latchRequest -/

@[simp] theorem latchRequest_fsm_state (r : TrapRequest) (s : State) : (latchRequest r s).fsm_state = .decode := rfl
@[simp] theorem latchRequest_epc_q (r : TrapRequest) (s : State) : (latchRequest r s).epc_q = r.epc := rfl
@[simp] theorem latchRequest_tval_q (r : TrapRequest) (s : State) : (latchRequest r s).tval_q = r.tval := rfl
@[simp] theorem latchRequest_cause_q (r : TrapRequest) (s : State) : (latchRequest r s).cause_q = r.cause := rfl
@[simp] theorem latchRequest_hartid_q (r : TrapRequest) (s : State) : (latchRequest r s).hartid_q = r.hartid := rfl
@[simp] theorem latchRequest_status_q (r : TrapRequest) (s : State) : (latchRequest r s).status_q = r.status := rfl
@[simp] theorem latchRequest_frame_q (r : TrapRequest) (s : State) : (latchRequest r s).frame_q = r.frame := rfl
@[simp] theorem latchRequest_is_async_q (r : TrapRequest) (s : State) : (latchRequest r s).is_async_q = s.is_async_q := rfl
@[simp] theorem latchRequest_cnum_q (r : TrapRequest) (s : State) : (latchRequest r s).cnum_q = s.cnum_q := rfl
@[simp] theorem latchRequest_class_q (r : TrapRequest) (s : State) : (latchRequest r s).class_q = s.class_q := rfl
@[simp] theorem latchRequest_resume_q (r : TrapRequest) (s : State) : (latchRequest r s).resume_q = s.resume_q := rfl
@[simp] theorem latchRequest_now_q (r : TrapRequest) (s : State) : (latchRequest r s).now_q = s.now_q := rfl
@[simp] theorem latchRequest_diag_q (r : TrapRequest) (s : State) : (latchRequest r s).diag_q = s.diag_q := rfl
@[simp] theorem latchRequest_halted_q (r : TrapRequest) (s : State) : (latchRequest r s).halted_q = s.halted_q := rfl
@[simp] theorem latchRequest_undef_q (r : TrapRequest) (s : State) : (latchRequest r s).undef_q = s.undef_q := rfl
@[simp] theorem latchRequest_acc_answer (r : TrapRequest) (s : State) : (latchRequest r s).acc_answer = s.acc_answer := rfl
@[simp] theorem latchRequest_mem (r : TrapRequest) (s : State) : (latchRequest r s).mem = s.mem := rfl
@[simp] theorem latchRequest_mtime (r : TrapRequest) (s : State) : (latchRequest r s).mtime = s.mtime := rfl
@[simp] theorem latchRequest_mtimecmp (r : TrapRequest) (s : State) : (latchRequest r s).mtimecmp = s.mtimecmp := rfl
@[simp] theorem latchRequest_uart_status (r : TrapRequest) (s : State) : (latchRequest r s).uart_status = s.uart_status := rfl
@[simp] theorem latchRequest_uart_data (r : TrapRequest) (s : State) : (latchRequest r s).uart_data = s.uart_data := rfl
@[simp] theorem latchRequest_uart_tx (r : TrapRequest) (s : State) : (latchRequest r s).uart_tx = s.uart_tx := rfl
@[simp] theorem latchRequest_halt_seen (r : TrapRequest) (s : State) : (latchRequest r s).halt_seen = s.halt_seen := rfl
@[simp] theorem latchRequest_cfg (r : TrapRequest) (s : State) : (latchRequest r s).cfg = s.cfg := rfl
@[simp] theorem latchRequest_inputs (r : TrapRequest) (s : State) : (latchRequest r s).inputs = s.inputs := rfl
@[simp] theorem latchRequest_uncleared (r : TrapRequest) (s : State) : (latchRequest r s).uncleared = s.uncleared := rfl
@[simp] theorem latchRequest_draws (r : TrapRequest) (s : State) : (latchRequest r s).draws = s.draws := rfl
@[simp] theorem latchRequest_undef_reason (r : TrapRequest) (s : State) : (latchRequest r s).undef_reason = s.undef_reason := rfl
@[simp] theorem latchRequest_bus (r : TrapRequest) (s : State) : (latchRequest r s).bus = s.bus := rfl

/-! ## decodeRecoverable -/

@[simp] theorem decodeRecoverable_fsm_state (c : TrapClass) (s : State) : (decodeRecoverable c s).fsm_state = .log := rfl
@[simp] theorem decodeRecoverable_epc_q (c : TrapClass) (s : State) : (decodeRecoverable c s).epc_q = s.epc_q := rfl
@[simp] theorem decodeRecoverable_tval_q (c : TrapClass) (s : State) : (decodeRecoverable c s).tval_q = s.tval_q := rfl
@[simp] theorem decodeRecoverable_cause_q (c : TrapClass) (s : State) : (decodeRecoverable c s).cause_q = s.cause_q := rfl
@[simp] theorem decodeRecoverable_hartid_q (c : TrapClass) (s : State) : (decodeRecoverable c s).hartid_q = s.hartid_q := rfl
@[simp] theorem decodeRecoverable_status_q (c : TrapClass) (s : State) : (decodeRecoverable c s).status_q = s.status_q := rfl
@[simp] theorem decodeRecoverable_frame_q (c : TrapClass) (s : State) : (decodeRecoverable c s).frame_q = s.frame_q := rfl
@[simp] theorem decodeRecoverable_is_async_q (c : TrapClass) (s : State) : (decodeRecoverable c s).is_async_q = asyncBit s.cause_q := rfl
@[simp] theorem decodeRecoverable_cnum_q (c : TrapClass) (s : State) : (decodeRecoverable c s).cnum_q = causeNumber s.cause_q := rfl
@[simp] theorem decodeRecoverable_class_q (c : TrapClass) (s : State) : (decodeRecoverable c s).class_q = c := rfl
@[simp] theorem decodeRecoverable_resume_q (c : TrapClass) (s : State) : (decodeRecoverable c s).resume_q = s.epc_q := rfl
@[simp] theorem decodeRecoverable_now_q (c : TrapClass) (s : State) : (decodeRecoverable c s).now_q = s.now_q := rfl
@[simp] theorem decodeRecoverable_diag_q (c : TrapClass) (s : State) : (decodeRecoverable c s).diag_q = Config.diagBytes s.draws c s.epc_q s.tval_q s.cause_q s.hartid_q := rfl
@[simp] theorem decodeRecoverable_halted_q (c : TrapClass) (s : State) : (decodeRecoverable c s).halted_q = s.halted_q := rfl
@[simp] theorem decodeRecoverable_undef_q (c : TrapClass) (s : State) : (decodeRecoverable c s).undef_q = s.undef_q := rfl
@[simp] theorem decodeRecoverable_acc_answer (c : TrapClass) (s : State) : (decodeRecoverable c s).acc_answer = s.acc_answer := rfl
@[simp] theorem decodeRecoverable_mem (c : TrapClass) (s : State) : (decodeRecoverable c s).mem = s.mem := rfl
@[simp] theorem decodeRecoverable_mtime (c : TrapClass) (s : State) : (decodeRecoverable c s).mtime = s.mtime := rfl
@[simp] theorem decodeRecoverable_mtimecmp (c : TrapClass) (s : State) : (decodeRecoverable c s).mtimecmp = s.mtimecmp := rfl
@[simp] theorem decodeRecoverable_uart_status (c : TrapClass) (s : State) : (decodeRecoverable c s).uart_status = s.uart_status := rfl
@[simp] theorem decodeRecoverable_uart_data (c : TrapClass) (s : State) : (decodeRecoverable c s).uart_data = s.uart_data := rfl
@[simp] theorem decodeRecoverable_uart_tx (c : TrapClass) (s : State) : (decodeRecoverable c s).uart_tx = s.uart_tx := rfl
@[simp] theorem decodeRecoverable_halt_seen (c : TrapClass) (s : State) : (decodeRecoverable c s).halt_seen = s.halt_seen := rfl
@[simp] theorem decodeRecoverable_cfg (c : TrapClass) (s : State) : (decodeRecoverable c s).cfg = s.cfg := rfl
@[simp] theorem decodeRecoverable_inputs (c : TrapClass) (s : State) : (decodeRecoverable c s).inputs = s.inputs := rfl
@[simp] theorem decodeRecoverable_uncleared (c : TrapClass) (s : State) : (decodeRecoverable c s).uncleared = s.uncleared := rfl
@[simp] theorem decodeRecoverable_draws (c : TrapClass) (s : State) : (decodeRecoverable c s).draws = s.draws := rfl
@[simp] theorem decodeRecoverable_undef_reason (c : TrapClass) (s : State) : (decodeRecoverable c s).undef_reason = s.undef_reason := rfl
@[simp] theorem decodeRecoverable_bus (c : TrapClass) (s : State) : (decodeRecoverable c s).bus = s.bus := rfl

/-! ## raiseFatal -/

@[simp] theorem raiseFatal_fsm_state (c : TrapClass) (s : State) : (raiseFatal c s).fsm_state = .panicLog := rfl
@[simp] theorem raiseFatal_epc_q (c : TrapClass) (s : State) : (raiseFatal c s).epc_q = s.epc_q := rfl
@[simp] theorem raiseFatal_tval_q (c : TrapClass) (s : State) : (raiseFatal c s).tval_q = s.tval_q := rfl
@[simp] theorem raiseFatal_cause_q (c : TrapClass) (s : State) : (raiseFatal c s).cause_q = s.cause_q := rfl
@[simp] theorem raiseFatal_hartid_q (c : TrapClass) (s : State) : (raiseFatal c s).hartid_q = s.hartid_q := rfl
@[simp] theorem raiseFatal_status_q (c : TrapClass) (s : State) : (raiseFatal c s).status_q = s.status_q := rfl
@[simp] theorem raiseFatal_frame_q (c : TrapClass) (s : State) : (raiseFatal c s).frame_q = s.frame_q := rfl
@[simp] theorem raiseFatal_is_async_q (c : TrapClass) (s : State) : (raiseFatal c s).is_async_q = asyncBit s.cause_q := rfl
@[simp] theorem raiseFatal_cnum_q (c : TrapClass) (s : State) : (raiseFatal c s).cnum_q = causeNumber s.cause_q := rfl
@[simp] theorem raiseFatal_class_q (c : TrapClass) (s : State) : (raiseFatal c s).class_q = c := rfl
@[simp] theorem raiseFatal_resume_q (c : TrapClass) (s : State) : (raiseFatal c s).resume_q = s.epc_q := rfl
@[simp] theorem raiseFatal_now_q (c : TrapClass) (s : State) : (raiseFatal c s).now_q = s.now_q := rfl
@[simp] theorem raiseFatal_diag_q (c : TrapClass) (s : State) : (raiseFatal c s).diag_q = Config.panicBytes s.draws c s.epc_q s.tval_q s.cause_q s.hartid_q := rfl
@[simp] theorem raiseFatal_halted_q (c : TrapClass) (s : State) : (raiseFatal c s).halted_q = s.halted_q := rfl
@[simp] theorem raiseFatal_undef_q (c : TrapClass) (s : State) : (raiseFatal c s).undef_q = s.undef_q := rfl
@[simp] theorem raiseFatal_acc_answer (c : TrapClass) (s : State) : (raiseFatal c s).acc_answer = s.acc_answer := rfl
@[simp] theorem raiseFatal_mem (c : TrapClass) (s : State) : (raiseFatal c s).mem = s.mem := rfl
@[simp] theorem raiseFatal_mtime (c : TrapClass) (s : State) : (raiseFatal c s).mtime = s.mtime := rfl
@[simp] theorem raiseFatal_mtimecmp (c : TrapClass) (s : State) : (raiseFatal c s).mtimecmp = s.mtimecmp := rfl
@[simp] theorem raiseFatal_uart_status (c : TrapClass) (s : State) : (raiseFatal c s).uart_status = s.uart_status := rfl
@[simp] theorem raiseFatal_uart_data (c : TrapClass) (s : State) : (raiseFatal c s).uart_data = s.uart_data := rfl
@[simp] theorem raiseFatal_uart_tx (c : TrapClass) (s : State) : (raiseFatal c s).uart_tx = s.uart_tx := rfl
@[simp] theorem raiseFatal_halt_seen (c : TrapClass) (s : State) : (raiseFatal c s).halt_seen = s.halt_seen := rfl
@[simp] theorem raiseFatal_cfg (c : TrapClass) (s : State) : (raiseFatal c s).cfg = s.cfg := rfl
@[simp] theorem raiseFatal_inputs (c : TrapClass) (s : State) : (raiseFatal c s).inputs = s.inputs := rfl
@[simp] theorem raiseFatal_uncleared (c : TrapClass) (s : State) : (raiseFatal c s).uncleared = s.uncleared := rfl
@[simp] theorem raiseFatal_draws (c : TrapClass) (s : State) : (raiseFatal c s).draws = s.draws := rfl
@[simp] theorem raiseFatal_undef_reason (c : TrapClass) (s : State) : (raiseFatal c s).undef_reason = s.undef_reason := rfl
@[simp] theorem raiseFatal_bus (c : TrapClass) (s : State) : (raiseFatal c s).bus = s.bus := rfl

/-! ## beginStep -/

@[simp] theorem beginStep_fsm_state (s : State) : (beginStep s).fsm_state = s.fsm_state := rfl
@[simp] theorem beginStep_epc_q (s : State) : (beginStep s).epc_q = s.epc_q := rfl
@[simp] theorem beginStep_tval_q (s : State) : (beginStep s).tval_q = s.tval_q := rfl
@[simp] theorem beginStep_cause_q (s : State) : (beginStep s).cause_q = s.cause_q := rfl
@[simp] theorem beginStep_hartid_q (s : State) : (beginStep s).hartid_q = s.hartid_q := rfl
@[simp] theorem beginStep_status_q (s : State) : (beginStep s).status_q = s.status_q := rfl
@[simp] theorem beginStep_frame_q (s : State) : (beginStep s).frame_q = s.frame_q := rfl
@[simp] theorem beginStep_is_async_q (s : State) : (beginStep s).is_async_q = s.is_async_q := rfl
@[simp] theorem beginStep_cnum_q (s : State) : (beginStep s).cnum_q = s.cnum_q := rfl
@[simp] theorem beginStep_class_q (s : State) : (beginStep s).class_q = s.class_q := rfl
@[simp] theorem beginStep_resume_q (s : State) : (beginStep s).resume_q = s.resume_q := rfl
@[simp] theorem beginStep_now_q (s : State) : (beginStep s).now_q = s.now_q := rfl
@[simp] theorem beginStep_diag_q (s : State) : (beginStep s).diag_q = s.diag_q := rfl
@[simp] theorem beginStep_halted_q (s : State) : (beginStep s).halted_q = s.halted_q := rfl
@[simp] theorem beginStep_undef_q (s : State) : (beginStep s).undef_q = s.undef_q := rfl
@[simp] theorem beginStep_acc_answer (s : State) : (beginStep s).acc_answer = none := rfl
@[simp] theorem beginStep_mem (s : State) : (beginStep s).mem = s.mem := rfl
@[simp] theorem beginStep_mtime (s : State) : (beginStep s).mtime = s.mtime := rfl
@[simp] theorem beginStep_mtimecmp (s : State) : (beginStep s).mtimecmp = s.mtimecmp := rfl
@[simp] theorem beginStep_uart_status (s : State) : (beginStep s).uart_status = s.uart_status := rfl
@[simp] theorem beginStep_uart_data (s : State) : (beginStep s).uart_data = s.uart_data := rfl
@[simp] theorem beginStep_uart_tx (s : State) : (beginStep s).uart_tx = s.uart_tx := rfl
@[simp] theorem beginStep_halt_seen (s : State) : (beginStep s).halt_seen = s.halt_seen := rfl
@[simp] theorem beginStep_cfg (s : State) : (beginStep s).cfg = s.cfg := rfl
@[simp] theorem beginStep_inputs (s : State) : (beginStep s).inputs = s.inputs := rfl
@[simp] theorem beginStep_uncleared (s : State) : (beginStep s).uncleared = s.uncleared := rfl
@[simp] theorem beginStep_draws (s : State) : (beginStep s).draws = s.draws := rfl
@[simp] theorem beginStep_undef_reason (s : State) : (beginStep s).undef_reason = s.undef_reason := rfl
@[simp] theorem beginStep_bus (s : State) : (beginStep s).bus = s.bus := rfl

/-! ## endStep -/

@[simp] theorem endStep_fsm_state (s : State) : (endStep s).fsm_state = s.fsm_state := rfl
@[simp] theorem endStep_epc_q (s : State) : (endStep s).epc_q = s.epc_q := rfl
@[simp] theorem endStep_tval_q (s : State) : (endStep s).tval_q = s.tval_q := rfl
@[simp] theorem endStep_cause_q (s : State) : (endStep s).cause_q = s.cause_q := rfl
@[simp] theorem endStep_hartid_q (s : State) : (endStep s).hartid_q = s.hartid_q := rfl
@[simp] theorem endStep_status_q (s : State) : (endStep s).status_q = s.status_q := rfl
@[simp] theorem endStep_frame_q (s : State) : (endStep s).frame_q = s.frame_q := rfl
@[simp] theorem endStep_is_async_q (s : State) : (endStep s).is_async_q = s.is_async_q := rfl
@[simp] theorem endStep_cnum_q (s : State) : (endStep s).cnum_q = s.cnum_q := rfl
@[simp] theorem endStep_class_q (s : State) : (endStep s).class_q = s.class_q := rfl
@[simp] theorem endStep_resume_q (s : State) : (endStep s).resume_q = s.resume_q := rfl
@[simp] theorem endStep_now_q (s : State) : (endStep s).now_q = s.now_q := rfl
@[simp] theorem endStep_diag_q (s : State) : (endStep s).diag_q = s.diag_q := rfl
@[simp] theorem endStep_halted_q (s : State) : (endStep s).halted_q = s.halted_q := rfl
@[simp] theorem endStep_undef_q (s : State) : (endStep s).undef_q = s.undef_q := rfl
@[simp] theorem endStep_acc_answer (s : State) : (endStep s).acc_answer = s.acc_answer := rfl
@[simp] theorem endStep_mem (s : State) : (endStep s).mem = s.mem := rfl
@[simp] theorem endStep_mtime (s : State) : (endStep s).mtime = s.mtime := rfl
@[simp] theorem endStep_mtimecmp (s : State) : (endStep s).mtimecmp = s.mtimecmp := rfl
@[simp] theorem endStep_uart_status (s : State) : (endStep s).uart_status = s.uart_status := rfl
@[simp] theorem endStep_uart_data (s : State) : (endStep s).uart_data = s.uart_data := rfl
@[simp] theorem endStep_uart_tx (s : State) : (endStep s).uart_tx = s.uart_tx := rfl
@[simp] theorem endStep_halt_seen (s : State) : (endStep s).halt_seen = s.halt_seen := rfl
@[simp] theorem endStep_cfg (s : State) : (endStep s).cfg = s.cfg := rfl
@[simp] theorem endStep_inputs (s : State) : (endStep s).inputs = s.inputs.tail := rfl
@[simp] theorem endStep_uncleared (s : State) : (endStep s).uncleared = s.uncleared := rfl
@[simp] theorem endStep_draws (s : State) : (endStep s).draws = s.draws + 1 := rfl
@[simp] theorem endStep_undef_reason (s : State) : (endStep s).undef_reason = s.undef_reason := rfl
@[simp] theorem endStep_bus (s : State) : (endStep s).bus = s.bus := rfl

/-! ## deviceWrite: what each device takes -/

@[simp] theorem deviceWrite_fsm_state (t : Target) (v : Word) (s : State) : (deviceWrite t v s).fsm_state = s.fsm_state := by cases t <;> rfl
@[simp] theorem deviceWrite_epc_q (t : Target) (v : Word) (s : State) : (deviceWrite t v s).epc_q = s.epc_q := by cases t <;> rfl
@[simp] theorem deviceWrite_tval_q (t : Target) (v : Word) (s : State) : (deviceWrite t v s).tval_q = s.tval_q := by cases t <;> rfl
@[simp] theorem deviceWrite_cause_q (t : Target) (v : Word) (s : State) : (deviceWrite t v s).cause_q = s.cause_q := by cases t <;> rfl
@[simp] theorem deviceWrite_hartid_q (t : Target) (v : Word) (s : State) : (deviceWrite t v s).hartid_q = s.hartid_q := by cases t <;> rfl
@[simp] theorem deviceWrite_status_q (t : Target) (v : Word) (s : State) : (deviceWrite t v s).status_q = s.status_q := by cases t <;> rfl
@[simp] theorem deviceWrite_frame_q (t : Target) (v : Word) (s : State) : (deviceWrite t v s).frame_q = s.frame_q := by cases t <;> rfl
@[simp] theorem deviceWrite_is_async_q (t : Target) (v : Word) (s : State) : (deviceWrite t v s).is_async_q = s.is_async_q := by cases t <;> rfl
@[simp] theorem deviceWrite_cnum_q (t : Target) (v : Word) (s : State) : (deviceWrite t v s).cnum_q = s.cnum_q := by cases t <;> rfl
@[simp] theorem deviceWrite_class_q (t : Target) (v : Word) (s : State) : (deviceWrite t v s).class_q = s.class_q := by cases t <;> rfl
@[simp] theorem deviceWrite_resume_q (t : Target) (v : Word) (s : State) : (deviceWrite t v s).resume_q = s.resume_q := by cases t <;> rfl
@[simp] theorem deviceWrite_now_q (t : Target) (v : Word) (s : State) : (deviceWrite t v s).now_q = s.now_q := by cases t <;> rfl
@[simp] theorem deviceWrite_diag_q (t : Target) (v : Word) (s : State) : (deviceWrite t v s).diag_q = s.diag_q := by cases t <;> rfl
@[simp] theorem deviceWrite_halted_q (t : Target) (v : Word) (s : State) : (deviceWrite t v s).halted_q = s.halted_q := by cases t <;> rfl
@[simp] theorem deviceWrite_undef_q (t : Target) (v : Word) (s : State) : (deviceWrite t v s).undef_q = s.undef_q := by cases t <;> rfl
@[simp] theorem deviceWrite_acc_answer (t : Target) (v : Word) (s : State) : (deviceWrite t v s).acc_answer = s.acc_answer := by cases t <;> rfl
@[simp] theorem deviceWrite_mem (t : Target) (v : Word) (s : State) : (deviceWrite t v s).mem = s.mem := by cases t <;> rfl
@[simp] theorem deviceWrite_mtime (t : Target) (v : Word) (s : State) : (deviceWrite t v s).mtime = s.mtime := by cases t <;> rfl
@[simp] theorem deviceWrite_uart_status (t : Target) (v : Word) (s : State) : (deviceWrite t v s).uart_status = s.uart_status := by cases t <;> rfl
@[simp] theorem deviceWrite_uart_data (t : Target) (v : Word) (s : State) : (deviceWrite t v s).uart_data = s.uart_data := by cases t <;> rfl
@[simp] theorem deviceWrite_cfg (t : Target) (v : Word) (s : State) : (deviceWrite t v s).cfg = s.cfg := by cases t <;> rfl
@[simp] theorem deviceWrite_inputs (t : Target) (v : Word) (s : State) : (deviceWrite t v s).inputs = s.inputs := by cases t <;> rfl
@[simp] theorem deviceWrite_uncleared (t : Target) (v : Word) (s : State) : (deviceWrite t v s).uncleared = s.uncleared := by cases t <;> rfl
@[simp] theorem deviceWrite_draws (t : Target) (v : Word) (s : State) : (deviceWrite t v s).draws = s.draws := by cases t <;> rfl
@[simp] theorem deviceWrite_undef_reason (t : Target) (v : Word) (s : State) : (deviceWrite t v s).undef_reason = s.undef_reason := by cases t <;> rfl
@[simp] theorem deviceWrite_bus (t : Target) (v : Word) (s : State) : (deviceWrite t v s).bus = s.bus := by cases t <;> rfl
@[simp] theorem deviceWrite_compare (v : Word) (s : State) : (deviceWrite .mtimecmp v s).mtimecmp = v := rfl
@[simp] theorem deviceWrite_uart_tx (v : Word) (s : State) : (deviceWrite .uart v s).uart_tx = s.uart_tx ++ [v.setWidth 8] := rfl
@[simp] theorem deviceWrite_uart_compare (v : Word) (s : State) : (deviceWrite .uart v s).mtimecmp = s.mtimecmp := rfl
@[simp] theorem deviceWrite_uart_halt_seen (v : Word) (s : State) : (deviceWrite .uart v s).halt_seen = s.halt_seen := rfl
@[simp] theorem deviceWrite_compare_tx (v : Word) (s : State) : (deviceWrite .mtimecmp v s).uart_tx = s.uart_tx := rfl
@[simp] theorem deviceWrite_compare_halt_seen (v : Word) (s : State) : (deviceWrite .mtimecmp v s).halt_seen = s.halt_seen := rfl
@[simp] theorem deviceWrite_halt_seen (v : Word) (s : State) : (deviceWrite .halt v s).halt_seen = s.halt_seen ++ [v] := rfl
@[simp] theorem deviceWrite_halt_compare (v : Word) (s : State) : (deviceWrite .halt v s).mtimecmp = s.mtimecmp := rfl
@[simp] theorem deviceWrite_halt_tx (v : Word) (s : State) : (deviceWrite .halt v s).uart_tx = s.uart_tx := rfl

/-! ## What the signals depend on, and the block view on the block registers alone -/

/-- The signals depend on the queue, and when it is empty on the FSM state and the uncleared source. -/
theorem signals_congr {s t : State} (hi : s.inputs = t.inputs) (hf : s.fsm_state = t.fsm_state)
    (hu : s.uncleared = t.uncleared) : signals s = signals t := by
  simp [signals, pendingSignals, hi, hf, hu]

/-- With inputs left, the signals are those of the head input. -/
theorem signals_of_inputs_eq {s t : State} (h : s.inputs = t.inputs) (hn : s.inputs ≠ []) : signals s = signals t := by
  unfold signals
  rw [← h]
  split <;> first | rfl | exact absurd ‹_› hn

@[simp] theorem signals_beginStep (s : State) : signals (beginStep s) = signals s := signals_congr rfl rfl rfl

@[simp] theorem block_beginStep (s : State) : (beginStep s).block = s.block := rfl
@[simp] theorem block_endStep (s : State) : (endStep s).block = s.block := rfl

end Sys2Proof.Machine
end

