-- ==== Sys2Proof/Laws/Ops.lean ====
section
/-! SUPPORT. For each shared operation, once: what it answers, and everything it can do. -/

namespace Sys2Proof.Machine

/-! ## Bus transactions and the nesting check -/

theorem busWrite_ok {t : Target} {v : Word} {rest : State → State} {s : State} (h : (signals s).bus_error = false) :
    busWrite t v rest s = rest (deviceWrite t v
      { s with bus := s.bus ++ [.write t (deviceAddr s.cfg s.frame_q t) (targetBytes s.cfg t) v] }) := by
  simp [busWrite, h]

theorem busWrite_error {t : Target} {v : Word} {rest : State → State} {s : State} (h : (signals s).bus_error = true) :
    busWrite t v rest s = raiseUndef .busError
      { s with bus := s.bus ++ [.writeError t (deviceAddr s.cfg s.frame_q t) (targetBytes s.cfg t) v] } := by
  simp [busWrite, h]

theorem unlessNested_quiet {act : State → State} {s : State} (h : (signals s).trap = none) :
    unlessNested act s = act s := by simp [unlessNested, h]

theorem unlessNested_nested {act : State → State} {s : State} {r : TrapRequest} (h : (signals s).trap = some r) :
    unlessNested act s = raiseUndef .nested s := by simp [unlessNested, h]

/-! ## Acceptance -/

theorem acceptRequest_none {s : State} (h : (signals s).trap = none) : acceptRequest s = .next s := by
  simp [acceptRequest, h]

theorem acceptRequest_some {s : State} {r : TrapRequest} (h : (signals s).trap = some r)
    (hf : frameOverlapsDevice s.cfg r.frame = false) (hs : frameIsStored s.mem r.frame = true) :
    acceptRequest s = .next (latchRequest r s) := by
  simp [acceptRequest, h, hf, hs]

theorem acceptRequest_overlap {s : State} {r : TrapRequest} (h : (signals s).trap = some r)
    (hf : frameOverlapsDevice s.cfg r.frame = true) : acceptRequest s = .refused .frameOverlapsDevice := by
  simp [acceptRequest, h, hf]

theorem acceptRequest_unstored {s : State} {r : TrapRequest} (h : (signals s).trap = some r)
    (hf : frameOverlapsDevice s.cfg r.frame = false) (hs : frameIsStored s.mem r.frame = false) :
    acceptRequest s = .refused .frameNotStored := by
  simp [acceptRequest, h, hf, hs]

/-- Everything acceptance can answer with a next state: waiting, or latching a request whose frame is clear and stored. -/
theorem acceptRequest_cases {s t : State} (h : acceptRequest s = .next t) :
    ((signals s).trap = none ∧ t = s) ∨
    (∃ r, (signals s).trap = some r ∧ frameOverlapsDevice s.cfg r.frame = false ∧ frameIsStored s.mem r.frame = true ∧
      t = latchRequest r s) := by
  unfold acceptRequest at h
  split at h
  · next h0 => injection h with h; exact .inl ⟨h0, h.symm⟩
  · next r h0 =>
    split at h
    · cases h
    · next hf =>
      split at h
      · cases h
      · next hs => injection h with h; exact .inr ⟨r, h0, by simpa using hf, by simpa using hs, h.symm⟩

/-! ## Emission, and the transition state by state -/

theorem emitStep_nil {f : State → State} {s : State} (h : s.diag_q = []) : emitStep f s = f s := by
  simp [emitStep, h]

theorem emitStep_cons {f : State → State} {s : State} {b : Byte} {bs : List Byte} (h : s.diag_q = b :: bs) :
    emitStep f s = busWrite .uart (b.setWidth 64) (fun t => { t with diag_q := bs }) s := by
  simp [emitStep, h]

theorem dispatchStep_idle (d l : State → State) {s : State} (h : s.fsm_state = .idle) :
    dispatchStep d l s = acceptRequest s := by simp [dispatchStep, h]

theorem dispatchStep_decode (d l : State → State) {s : State} (h : s.fsm_state = .decode) :
    dispatchStep d l s = .next (unlessNested d s) := by simp [dispatchStep, h]

theorem dispatchStep_log (d l : State → State) {s : State} (h : s.fsm_state = .log) :
    dispatchStep d l s = .next (unlessNested (emitStep l) s) := by simp [dispatchStep, h]

theorem dispatchStep_timerRead (d l : State → State) {s : State} (h : s.fsm_state = .timerRead) :
    dispatchStep d l s = .next (unlessNested timerReadStep s) := by simp [dispatchStep, h]

theorem dispatchStep_timerWrite (d l : State → State) {s : State} (h : s.fsm_state = .timerWrite) :
    dispatchStep d l s = .next (unlessNested timerWriteStep s) := by simp [dispatchStep, h]

theorem dispatchStep_resume (d l : State → State) {s : State} (h : s.fsm_state = .resume) :
    dispatchStep d l s = .next (unlessNested resumeStep s) := by simp [dispatchStep, h]

theorem dispatchStep_panicLog (d l : State → State) {s : State} (h : s.fsm_state = .panicLog) :
    dispatchStep d l s = .next (unlessNested (emitStep (goto .haltWrite)) s) := by simp [dispatchStep, h]

theorem dispatchStep_haltWrite (d l : State → State) {s : State} (h : s.fsm_state = .haltWrite) :
    dispatchStep d l s = .next (unlessNested haltWriteStep s) := by simp [dispatchStep, h]

theorem dispatchStep_halted (d l : State → State) {s : State} (h : s.fsm_state = .halted) :
    dispatchStep d l s = .next s := by simp [dispatchStep, h]

theorem dispatchStep_undef (d l : State → State) {s : State} (h : s.fsm_state = .undef) :
    dispatchStep d l s = .next s := by simp [dispatchStep, h]

/-! ## The cause operations, by class -/

/-- What an operation of class `c` does in DECODE. -/
def atDecode (c : TrapClass) : State → State :=
  match tier c with
  | .recoverable => decodeRecoverable c
  | .fatal => raiseFatal c

/-- What an operation of class `c` does when LOG finds `diag_q` empty (44_diag_and_halt R212). -/
def atLogEnd (c : TrapClass) : State → State :=
  if skips c then fun t => goto .resume (skip t)
  else if c = .timer then goto .timerRead
  else goto .resume

/-- Every cause operation is the FSM transition of its class. -/
theorem exec_cause {i : Instr} {c : TrapClass} (h : opClass i = some c) (s : State) :
    exec i s = dispatchStep (atDecode c) (atLogEnd c) s := by
  cases i <;> first | (injection h with h; subst h; rfl) | cases h

/-- Every accessor operation is the read at its offset. -/
theorem exec_accessor {i : Instr} {off : BitVec 10} (h : i.offset? = some off) (s : State) :
    exec i s = accessorRead off s := by
  cases i <;> first | (injection h with h; subst h; rfl) | cases h

@[simp] theorem opClass_ofClass (c : TrapClass) (w : Word) : opClass (Instr.ofClass c w) = some c := by cases c <;> rfl

theorem exec_ofClass (c : TrapClass) (w : Word) (s : State) :
    exec (Instr.ofClass c w) s = dispatchStep (atDecode c) (atLogEnd c) s := exec_cause (opClass_ofClass c w) s

/-- `TICK` is 10_000_000 counter units (00_scope R6). -/
theorem tick_toNat : tick.toNat = 10000000 := by unfold tick; rfl

/-! ## The accessor -/

/-- Everything an accessor read can answer with a next state: an error answer, or the data of the bytes stored. -/
theorem accessorRead_cases {off : BitVec 10} {s t : State} (h : accessorRead off s = .next t) :
    (∃ r, frameCheck s off = some r ∧ t = { s with acc_answer := some (.error r) }) ∨
    (frameCheck s off = none ∧ accBusError s = true ∧
      t = { s with acc_answer := some (.error .busError)
                   bus := s.bus ++ [.readError .frame (fieldAddr s.frame_q off) 8] }) ∨
    (∃ v, frameCheck s off = none ∧ accBusError s = false ∧ memRead s.mem (fieldAddr s.frame_q off) 8 = some v ∧
      t = { s with acc_answer := some (.data v)
                   bus := s.bus ++ [.read .frame (fieldAddr s.frame_q off) 8 v] }) := by
  unfold accessorRead at h
  split at h
  · next r hr => injection h with h; exact .inl ⟨r, hr, h.symm⟩
  · next hr =>
    split at h
    · next he => injection h with h; exact .inr (.inl ⟨hr, he, h.symm⟩)
    · next he =>
      split at h
      · cases h
      · next v hv => injection h with h; exact .inr (.inr ⟨v, hr, by simpa using he, hv, h.symm⟩)

/-- An accessor read changes no block register. -/
theorem accessorRead_block {off : BitVec 10} {s t : State} (h : accessorRead off s = .next t) : t.block = s.block := by
  obtain ⟨_, _, rfl⟩ | ⟨_, _, rfl⟩ | ⟨_, _, _, _, rfl⟩ := accessorRead_cases h <;> rfl

/-! ## Stores from outside -/

/-- Everything a store from outside can answer with a next state: a device write that has an effect, or bytes stored clear
of the devices and of a live frame. The hart makes neither while the block is busy. -/
theorem outsideStore_cases {who : Agent} {addr : Word} {size : Size} {v : Word} {s t : State}
    (h : outsideStore who addr size v s = .next t) :
    hartBreaksBusy who s = false ∧
    ((∃ d, deviceWriteAt s.cfg addr size = some d ∧ t = deviceWrite d (lowBytes (sizeBytes size) v) s) ∨
     (deviceWriteAt s.cfg addr size = none ∧
      ((deviceRegions s.cfg).any fun r => touches r addr (sizeBytes size)) = false ∧
      (frameLive s.fsm_state && touches (frameRegion s.frame_q) addr (sizeBytes size)) = false ∧
      t = { s with mem := memWrite s.mem addr (sizeBytes size) v })) := by
  unfold outsideStore at h
  split at h
  · cases h
  · next hb =>
    refine ⟨by simpa using hb, ?_⟩
    split at h
    · next d hd => injection h with h; exact .inl ⟨d, hd, h.symm⟩
    · next hn =>
      split at h
      · cases h
      · next hd =>
        split at h
        · cases h
        · next hl => injection h with h; exact .inr ⟨hn, by simpa using hd, by simpa using hl, h.symm⟩

/-- The 8-byte access at the compare register's address is its write. -/
theorem deviceWriteAt_compare (p : Params) : deviceWriteAt p p.mtimecmp_addr .b8 = some .mtimecmp := by
  simp [deviceWriteAt]

/-- Two regions are disjoint when one ends before the other begins. -/
theorem Region.disjoint_iff (r q : Region) :
    r.disjoint q = true ↔ r.base + r.size ≤ q.base ∨ q.base + q.size ≤ r.base := by simp [Region.disjoint]

/-- In a well-formed instance the access of HALT_WIDTH bytes at the halt device's address is its write. -/
theorem deviceWriteAt_halt {p : Params} (hw : instanceWf p = true) :
    deviceWriteAt p p.halt_addr p.halt_width = some .halt := by
  simp only [instanceWf, regionsDisjoint, Bool.and_eq_true, Region.disjoint_iff] at hw
  have hu := hw.1.1.2.1.1.1.2
  have hm := hw.1.1.2.2
  simp only [uartRegion, mtimecmpRegion, haltRegion, uartRxStatusOffset] at hu hm
  unfold deviceWriteAt
  rw [if_neg, if_neg, if_pos ⟨rfl, rfl⟩]
  · rintro ⟨h1, h2⟩
    rw [h1, h2, sizeBytes] at hm
    omega
  · rintro ⟨h1, h2⟩
    rw [h1, h2, sizeBytes] at hu
    omega

/-- What a device write from outside is, and what it does: one of three accesses. -/
theorem deviceWriteAt_cases {addr v : Word} {size : Size} {d : Target} {s : State}
    (h : deviceWriteAt s.cfg addr size = some d) :
    (addr = s.cfg.uart_base ∧ size = .b1 ∧
      deviceWrite d (lowBytes (sizeBytes size) v) s = { s with uart_tx := s.uart_tx ++ [v.setWidth 8] }) ∨
    (addr = s.cfg.mtimecmp_addr ∧ size = .b8 ∧
      deviceWrite d (lowBytes (sizeBytes size) v) s = { s with mtimecmp := v }) ∨
    (addr = s.cfg.halt_addr ∧ size = s.cfg.halt_width ∧
      deviceWrite d (lowBytes (sizeBytes size) v) s =
        { s with halt_seen := s.halt_seen ++ [lowBytes (sizeBytes s.cfg.halt_width) v] }) := by
  unfold deviceWriteAt at h
  split at h
  · next ha => cases h; rw [ha.2]; exact .inl ⟨ha.1, rfl, by simp [deviceWrite, lowBytes, sizeBytes]⟩
  · split at h
    · next ha => cases h; rw [ha.2]; exact .inr (.inl ⟨ha.1, rfl, by simp [deviceWrite, lowBytes, sizeBytes]⟩)
    · split at h
      · next ha => cases h; rw [ha.2]; exact .inr (.inr ⟨ha.1, rfl, rfl⟩)
      · cases h

theorem lowBytes_word (v : Word) : lowBytes (sizeBytes .b8) v = v := by simp [lowBytes, sizeBytes]

/-- The first deadline: refused of a busy hart, else the compare register takes it. -/
theorem outsideCompare_eq (who : Agent) (d : Word) (s : State) :
    outsideCompare who d s = if hartBreaksBusy who s then .refused .hartAccessWhileBusy else .next { s with mtimecmp := d } := by
  simp only [outsideCompare, outsideStore, deviceWriteAt_compare, lowBytes_word, deviceWrite]

end Sys2Proof.Machine
end

