-- ==== Sys2Proof/Laws/Decode.lean ====
section
/-! SUPPORT. Small facts about the decoder that the step needs. -/

namespace Sys2Proof

/-- The bits of a cause word, field by field (30_encoding R90). -/
theorem causeWord_getElem (a : Bool) (u : BitVec 51) (n : BitVec 12) (k : Nat) (hk : k < 64) :
    (causeWord a u n)[k] = if k < 12 then n.getLsbD k else if k < 63 then u.getLsbD (k - 12) else a := by
  have h : (causeWord a u n)[k] = (causeWord a u n).getLsbD k := (BitVec.getLsbD_eq_getElem hk).symm
  rw [h, causeWord, BitVec.getLsbD_append, BitVec.getLsbD_append]
  by_cases h1 : k < 12
  · simp [h1]; omega
  · by_cases h2 : k < 63
    · simp [h1, h2]
    · have : k = 63 := by omega
      subst this; simp

theorem opClass_decodeCause (w : Word) : Machine.opClass (decodeCause w) = some (selectClass w) :=
  Machine.opClass_ofClass _ _

/-- The ten bits of an offset, from its three fields (30_encoding R107). -/
theorem offset_fields (off : BitVec 10) :
    off.toNat = (off.extractLsb' 8 2).toNat * 256 + (off.extractLsb' 3 5).toNat * 8 + (off.extractLsb' 0 3).toNat := by
  simp only [BitVec.extractLsb'_toNat, Nat.shiftRight_eq_div_pow]
  omega

theorem elementOffset_toNat (bank : BitVec 2) (index : BitVec 5) :
    (elementOffset bank index).toNat = bank.toNat * 256 + index.toNat * 8 := by
  have hi := index.isLt
  have inner : (index ++ 0#3).toNat = index.toNat * 8 := by
    rw [BitVec.toNat_append, ← Nat.shiftLeft_add_eq_or_of_lt (BitVec.isLt _), Nat.shiftLeft_eq]
    rfl
  rw [elementOffset, BitVec.toNat_append, ← Nat.shiftLeft_add_eq_or_of_lt (BitVec.isLt _), inner, Nat.shiftLeft_eq]

/-- A selected accessor operation reads at the offset that selected it. -/
theorem offset_of_decodeOffset {off : BitVec 10} {i : Instr} (h : decodeOffset off = .ok i) : i.offset? = some off := by
  have fields := offset_fields off
  unfold decodeOffset at h
  split at h
  · cases h
  next h0 =>
  have h0 : off.extractLsb' 0 3 = 0 := by simpa using h0
  rw [h0] at fields
  split at h
  · next h1 =>
    injection h with h; subst h
    rw [eq_of_beq h1] at fields
    exact congrArg some (BitVec.eq_of_toNat_eq (by rw [elementOffset_toNat, fields]; simp))
  split at h
  · next h1 =>
    injection h with h; subst h
    rw [eq_of_beq h1] at fields
    exact congrArg some (BitVec.eq_of_toNat_eq (by rw [elementOffset_toNat, fields]; simp))
  repeat' split at h
  all_goals first
    | (next h2 => injection h with h; subst h; rw [eq_of_beq h2]; rfl)
    | cases h

end Sys2Proof
end

