-- ==== Sys2Proof/Laws/Memory.lean ====
section
/-! SUPPORT. Reads after writes, and that every memory operation keeps the canonical form. -/

namespace Sys2Proof.Machine

theorem memWfFrom_mono {lo hi : Nat} {m : List Host.Cell} (h : memWfFrom hi m = true) (hle : lo ≤ hi) :
    memWfFrom lo m = true := by
  cases m with
  | nil => rfl
  | cons c m => simp [memWfFrom] at h ⊢; exact ⟨⟨by omega, h.1.2⟩, h.2⟩

/-- A byte store keeps addresses rising from the same bound. -/
theorem memWfFrom_writeByte {m : List Host.Cell} {a : Nat} {b : Byte} (ha : a < 2 ^ 64) :
    ∀ {lo : Nat}, lo ≤ a → memWfFrom lo m = true → memWfFrom lo (writeByte m a b) = true := by
  induction m with
  | nil => intro lo hlo _; simp [writeByte, memWfFrom]; omega
  | cons c m ih =>
    intro lo hlo h
    simp [memWfFrom] at h
    unfold writeByte
    split
    · simp [memWfFrom, h.1.2, h.2]; omega
    · split
      · next _ heq => subst heq; simp [memWfFrom, h.2]; omega
      · simp [memWfFrom, h.1]
        exact ih (by omega) h.2

/-- A byte store keeps the canonical form. -/
theorem wf_writeByte {m : List Host.Cell} {a : Nat} {b : Byte} (ha : a < 2 ^ 64) (h : Memory.wf m = true) :
    Memory.wf (writeByte m a b) = true := memWfFrom_writeByte ha (Nat.zero_le a) h

/-- `MemWrite` keeps the canonical form, whatever its width. -/
theorem wf_memWrite (n : Nat) : ∀ (m : List Host.Cell) (addr v : Word), Memory.wf m = true →
    Memory.wf (memWrite m addr n v) = true := by
  induction n with
  | zero => intro m addr v h; exact h
  | succ n ih => intro m addr v h; exact ih _ _ _ (wf_writeByte addr.isLt h)

@[simp] theorem readByte_writeByte_self (m : List Host.Cell) (a : Nat) (b : Byte) :
    readByte (writeByte m a b) a = some b := by
  induction m with
  | nil => simp [writeByte, readByte]
  | cons c m ih =>
    unfold writeByte
    split
    · simp [readByte]
    · split
      · simp [readByte]
      · next _ hne => simp [readByte, Ne.symm hne, ih]

theorem readByte_writeByte_ne {m : List Host.Cell} {a x : Nat} {b : Byte} (h : x ≠ a) :
    readByte (writeByte m a b) x = readByte m x := by
  induction m with
  | nil => simp [writeByte, readByte, Ne.symm h]
  | cons c m ih =>
    unfold writeByte
    split
    · simp [readByte, Ne.symm h]
    · split
      · next _ heq => subst heq; simp [readByte, Ne.symm h]
      · simp [readByte, ih]

/-- The address of byte `k + 1` from `addr` is that of byte `k` from `addr + 1`. -/
theorem addr_succ (addr : Word) (k : Nat) :
    addr + 1 + BitVec.ofNat 64 k = addr + BitVec.ofNat 64 (k + 1) := by
  rw [BitVec.ofNat_add, BitVec.add_assoc, BitVec.add_comm (BitVec.ofNat 64 k)]
  rfl

/-- `MemWrite` leaves every byte it does not touch alone. -/
theorem readByte_memWrite_of_not_touched (n : Nat) : ∀ (m : List Host.Cell) (addr v : Word) (x : Nat),
    (∀ k, k < n → x ≠ (addr + BitVec.ofNat 64 k).toNat) → readByte (memWrite m addr n v) x = readByte m x := by
  induction n with
  | zero => intro m addr v x _; rfl
  | succ n ih =>
    intro m addr v x h
    have h0 : x ≠ addr.toNat := by simpa using h 0 (Nat.succ_pos n)
    rw [memWrite, ih _ _ _ _ ?_, readByte_writeByte_ne h0]
    intro k hk
    have := h (k + 1) (by omega)
    rwa [addr_succ]

/-- `MemRead` sees the bytes it names and nothing else. -/
theorem memRead_congr (n : Nat) : ∀ (m m' : List Host.Cell) (addr : Word),
    (∀ k, k < n → readByte m (addr + BitVec.ofNat 64 k).toNat = readByte m' (addr + BitVec.ofNat 64 k).toNat) →
    memRead m addr n = memRead m' addr n := by
  induction n with
  | zero => intro m m' addr _; rfl
  | succ n ih =>
    intro m m' addr h
    have h0 : readByte m addr.toNat = readByte m' addr.toNat := by simpa using h 0 (Nat.succ_pos n)
    have hr : memRead m (addr + 1) n = memRead m' (addr + 1) n := by
      refine ih _ _ _ fun k hk => ?_
      have := h (k + 1) (by omega)
      rwa [addr_succ]
    unfold memRead; rw [h0, hr]

/-- A read of stored bytes has a value. -/
theorem memRead_isSome (n : Nat) : ∀ (m : List Host.Cell) (addr : Word),
    (∀ k, k < n → (readByte m (addr + BitVec.ofNat 64 k).toNat).isSome = true) → (memRead m addr n).isSome = true := by
  induction n with
  | zero => intro m addr _; rfl
  | succ n ih =>
    intro m addr h
    have h0 : (readByte m addr.toNat).isSome = true := by simpa using h 0 (Nat.succ_pos n)
    have hr : (memRead m (addr + 1) n).isSome = true := by
      refine ih _ _ fun k hk => ?_
      have := h (k + 1) (by omega)
      rwa [addr_succ]
    obtain ⟨b, hb⟩ := Option.isSome_iff_exists.1 h0
    obtain ⟨v, hv⟩ := Option.isSome_iff_exists.1 hr
    unfold memRead; rw [hb, hv]; rfl

/-- A store unsays no byte. -/
theorem readByte_memWrite_isSome (n : Nat) : ∀ (m : List Host.Cell) (addr v : Word) (x : Nat),
    (readByte m x).isSome = true → (readByte (memWrite m addr n v) x).isSome = true := by
  induction n with
  | zero => intro m addr v x h; exact h
  | succ n ih =>
    intro m addr v x h
    refine ih _ _ _ _ ?_
    by_cases hx : x = addr.toNat
    · rw [hx, readByte_writeByte_self]; rfl
    · rwa [readByte_writeByte_ne hx]

/-- A stored frame stays stored. -/
theorem frameStored_memWrite {m : List Host.Cell} {frame : Word} (n : Nat) (addr v : Word) (h : frameStored m frame) :
    frameStored (memWrite m addr n v) frame :=
  fun k hk ht => readByte_memWrite_isSome n m addr v _ (h k hk ht)

/-- A run found by the one pass is stored, in any list. -/
theorem readByte_of_storedRun {m : List Host.Cell} : ∀ {a n : Nat}, storedRun m a n = true →
    ∀ k, k < n → (readByte m (a + k)).isSome = true := by
  induction m with
  | nil => intro a n h k hk; simp [storedRun] at h; omega
  | cons c m ih =>
    intro a n h k hk
    unfold storedRun at h
    split at h
    · rw [readByte]; split
      · rfl
      · exact ih h k hk
    · simp only [Bool.or_eq_true, Bool.and_eq_true, decide_eq_true_eq] at h
      obtain h | ⟨hc, h⟩ := h
      · omega
      · cases k with
        | zero => simp [readByte, hc]
        | succ k =>
          rw [readByte, if_neg (by omega), show a + (k + 1) = a + 1 + k by omega]
          exact ih h k (by omega)

/-- Below the bound of a canonical list nothing is stored. -/
theorem readByte_below {m : List Host.Cell} : ∀ {lo a : Nat}, memWfFrom lo m = true → a < lo → readByte m a = none := by
  induction m with
  | nil => intro lo a _ _; rfl
  | cons c m ih =>
    intro lo a h ha
    simp [memWfFrom] at h
    rw [readByte, if_neg (by omega)]
    exact ih h.2 (by omega)

/-- In canonical form the one pass finds every stored run. -/
theorem storedRun_of_readByte {m : List Host.Cell} : ∀ {lo a n : Nat}, memWfFrom lo m = true →
    (∀ k, k < n → (readByte m (a + k)).isSome = true) → storedRun m a n = true := by
  induction m with
  | nil =>
    intro lo a n _ h
    cases n with
    | zero => rfl
    | succ n => have := h 0 (by omega); simp [readByte] at this
  | cons c m ih =>
    intro lo a n hw h
    simp [memWfFrom] at hw
    unfold storedRun
    split
    · next hlt =>
      refine ih hw.2 fun k hk => ?_
      have := h k hk
      rwa [readByte, if_neg (by omega)] at this
    · next hge =>
      cases n with
      | zero => simp
      | succ n =>
        have hc : c.1 = a := by
          have h0 := h 0 (by omega)
          by_cases hc : c.1 = a
          · exact hc
          · rw [readByte, if_neg (by omega), readByte_below hw.2 (by omega)] at h0; cases h0
        simp only [hc, Bool.or_eq_true, Bool.and_eq_true, decide_eq_true_eq, true_and]
        refine .inr (ih hw.2 fun k hk => ?_)
        have := h (k + 1) (by omega)
        rwa [readByte, if_neg (by omega), show a + (k + 1) = a + 1 + k by omega] at this

/-- What acceptance asks of the frame: every byte of it has been stored. -/
theorem frameStored_of_frameIsStored {m : List Host.Cell} {frame : Word} (h : frameIsStored m frame = true) :
    frameStored m frame :=
  fun k hk ht => readByte_of_storedRun h k (by omega)

/-- In canonical memory acceptance asks exactly that. -/
theorem frameIsStored_iff {m : List Host.Cell} (frame : Word) (hw : Memory.wf m = true) :
    frameIsStored m frame = true ↔ frameStored m frame :=
  ⟨frameStored_of_frameIsStored, fun h => storedRun_of_readByte hw fun k hk => h k (by omega) (by omega)⟩

/-! ## Storing a frame of zeros -/

theorem memWfFrom_filter {p : Host.Cell → Bool} {m : List Host.Cell} : ∀ {lo : Nat}, memWfFrom lo m = true →
    memWfFrom lo (m.filter p) = true := by
  induction m with
  | nil => intro lo _; rfl
  | cons c m ih =>
    intro lo h
    simp [memWfFrom] at h
    rw [List.filter_cons]
    split
    · simp [memWfFrom, h.1, ih h.2]
    · exact memWfFrom_mono (ih h.2) (by omega)

theorem memWfFrom_above {b : Nat} {m : List Host.Cell} : ∀ {lo : Nat}, memWfFrom lo m = true →
    memWfFrom b (m.filter fun c => decide (b ≤ c.1)) = true := by
  induction m with
  | nil => intro lo _; rfl
  | cons c m ih =>
    intro lo h
    simp [memWfFrom] at h
    rw [List.filter_cons]
    split
    · next hb => simp [memWfFrom, h.1.2, memWfFrom_filter h.2]; simpa using hb
    · exact ih h.2

theorem memWfFrom_below_append {a : Nat} {m r : List Host.Cell} (hr : memWfFrom a r = true) : ∀ {lo : Nat}, lo ≤ a →
    memWfFrom lo m = true → memWfFrom lo ((m.filter fun c => decide (c.1 < a)) ++ r) = true := by
  induction m with
  | nil => intro lo hlo _; exact memWfFrom_mono hr hlo
  | cons c m ih =>
    intro lo hlo h
    simp [memWfFrom] at h
    rw [List.filter_cons]
    split
    · next ha =>
      rw [List.cons_append]
      simp [memWfFrom, h.1]
      exact ih (by simpa using ha) h.2
    · exact ih hlo (memWfFrom_mono h.2 (by omega))

theorem memWfFrom_zeroCells_append {r : List Host.Cell} : ∀ {n a : Nat}, a + n ≤ 2 ^ 64 → memWfFrom (a + n) r = true →
    memWfFrom a (zeroCells a n ++ r) = true := by
  intro n
  induction n with
  | zero => intro a _ hr; exact hr
  | succ n ih =>
    intro a ha hr
    simp only [zeroCells, List.cons_append, memWfFrom, Bool.and_eq_true, decide_eq_true_eq]
    exact ⟨⟨by omega, by omega⟩, ih (by omega) (by rwa [show a + 1 + n = a + (n + 1) by omega])⟩

/-- Storing a frame keeps the canonical form. -/
theorem wf_storeZeroFrame {m : List Host.Cell} (frame : Word) (h : Memory.wf m = true) :
    Memory.wf (storeZeroFrame m frame) = true := by
  have hf := frame.isLt
  refine memWfFrom_below_append (memWfFrom_zeroCells_append (by omega) ?_) (Nat.zero_le _) h
  exact memWfFrom_mono (memWfFrom_above h) (by omega)

end Sys2Proof.Machine
end

