-- ==== Sys2Proof/Laws/PerInstr.lean ====
section
/-! SUPPORT. Statements made per instruction. TableBits: an instruction's encoding has the fixed bits of its row of
spec/opcode_table.json (30_encoding R111, R112). -/

namespace Sys2Proof.Laws.TableBits

/-- The `match` and `mask` columns of spec/opcode_table.json, an offset row's taken as 64-bit values. -/
def matchMask : Instr → Word × Word
  | .swi _ => (0x8000000000000003, 0x8000000000000FFF)
  | .timer _ => (0x8000000000000007, 0x8000000000000FFF)
  | .ext _ => (0x800000000000000B, 0x8000000000000FFF)
  | .asyncOther _ _ => (0x8000000000000000, 0x8000000000000000)
  | .illegal _ => (0x0000000000000002, 0x8000000000000FFF)
  | .ecallU _ => (0x0000000000000008, 0x8000000000000FFF)
  | .ecallS _ => (0x0000000000000009, 0x8000000000000FFF)
  | .ecallM _ => (0x000000000000000B, 0x8000000000000FFF)
  | .ipf _ => (0x000000000000000C, 0x8000000000000FFF)
  | .lpf _ => (0x000000000000000D, 0x8000000000000FFF)
  | .spf _ => (0x000000000000000F, 0x8000000000000FFF)
  | .syncOther _ _ => (0x0000000000000000, 0x8000000000000000)
  | .frameRegs _ => (0x000, 0x307)
  | .frameFregs _ => (0x100, 0x307)
  | .frameSatp => (0x200, 0x3FF)
  | .frameTrapStack => (0x208, 0x3FF)
  | .frameHartid => (0x210, 0x3FF)

/-- The encoded word: a cause word, or an offset as a 64-bit value. -/
def bits (i : Instr) : Word := (i.cause?.getD 0) ||| ((i.offset?.getD 0).setWidth 64)

/-- The encoding of `i`, under its row's mask, is its row's match bits. -/
def Statement (i : Instr) : Prop := bits i &&& (matchMask i).2 = (matchMask i).1

/-- Under the exact mask a cause word keeps A and N. -/
theorem causeWord_exact (a : Bool) (u : BitVec 51) (n : BitVec 12) :
    causeWord a u n &&& 0x8000000000000FFF = causeWord a 0 n := by
  ext k hk
  rw [BitVec.getElem_and, causeWord_getElem, causeWord_getElem]
  interval_cases k <;> simp

/-- Under the mask of the OTHER rows a cause word keeps A. -/
theorem causeWord_other (a : Bool) (u : BitVec 51) (n : BitVec 12) :
    causeWord a u n &&& 0x8000000000000000 = causeWord a 0 0 := by
  ext k hk
  rw [BitVec.getElem_and, causeWord_getElem, causeWord_getElem]
  interval_cases k <;> simp

theorem bits_cause {i : Instr} {w : Word} (h : i.cause? = some w) : bits i = w := by
  cases i <;> first | (injection h with h; subst h; simp [bits, Instr.cause?, Instr.offset?]) | cases h

theorem bits_offset {i : Instr} {off : BitVec 10} (h : i.offset? = some off) : bits i = off.setWidth 64 := by
  cases i <;> first | (injection h with h; subst h; simp [bits, Instr.cause?, Instr.offset?]) | cases h

theorem exact {i : Instr} {a : Bool} {u : BitVec 51} {n : BitVec 12} (h : i.cause? = some (causeWord a u n))
    (hm : matchMask i = (causeWord a 0 n, 0x8000000000000FFF)) : Statement i := by
  rw [Statement, bits_cause h, hm]; exact causeWord_exact a u n

theorem other {i : Instr} {a : Bool} {u : BitVec 51} {n : BitVec 12} (h : i.cause? = some (causeWord a u n))
    (hm : matchMask i = (causeWord a 0 0, 0x8000000000000000)) : Statement i := by
  rw [Statement, bits_cause h, hm]; exact causeWord_other a u n

theorem swi (upper : BitVec 51) : Statement (.swi upper) := exact rfl rfl
theorem timer (upper : BitVec 51) : Statement (.timer upper) := exact rfl rfl
theorem ext (upper : BitVec 51) : Statement (.ext upper) := exact rfl rfl
theorem asyncOther (upper : BitVec 51) (n : BitVec 12) : Statement (.asyncOther upper n) := other rfl rfl
theorem illegal (upper : BitVec 51) : Statement (.illegal upper) := exact rfl rfl
theorem ecallU (upper : BitVec 51) : Statement (.ecallU upper) := exact rfl rfl
theorem ecallS (upper : BitVec 51) : Statement (.ecallS upper) := exact rfl rfl
theorem ecallM (upper : BitVec 51) : Statement (.ecallM upper) := exact rfl rfl
theorem ipf (upper : BitVec 51) : Statement (.ipf upper) := exact rfl rfl
theorem lpf (upper : BitVec 51) : Statement (.lpf upper) := exact rfl rfl
theorem spf (upper : BitVec 51) : Statement (.spf upper) := exact rfl rfl
theorem syncOther (upper : BitVec 51) (n : BitVec 12) : Statement (.syncOther upper n) := other rfl rfl

/-- The 32 element offsets of the two register banks keep the bank bits and the alignment bits. -/
theorem element (bank : BitVec 2) (index : BitVec 5) :
    (elementOffset bank index).setWidth 64 &&& 0x307 = (elementOffset bank 0).setWidth 64 := by
  ext k hk
  simp only [elementOffset, BitVec.getElem_and, BitVec.getElem_setWidth, BitVec.getLsbD_append]
  interval_cases k <;> simp

theorem frameRegs (index : BitVec 5) : Statement (.frameRegs index) := by
  rw [Statement, bits_offset rfl]; exact element 0 index
theorem frameFregs (index : BitVec 5) : Statement (.frameFregs index) := by
  rw [Statement, bits_offset rfl]; exact element 1 index
theorem frameSatp : Statement .frameSatp := rfl
theorem frameTrapStack : Statement .frameTrapStack := rfl
theorem frameHartid : Statement .frameHartid := rfl

end Sys2Proof.Laws.TableBits
end

