-- ==== Sys2Proof/Laws/Step.lean ====
section
/-! SUPPORT. What a step can do, said once: the FSM's transition as one equation and one inversion, the accessor request, and
the shape of a step. -/

namespace Sys2Proof.Machine

/-- An accessor request is the read at its offset, valid or not. -/
theorem accessorRequest_eq (off : BitVec 10) (s : State) : accessorRequest off s = accessorRead off s := by
  unfold accessorRequest
  split
  · next i h => exact exec_accessor (offset_of_decodeOffset h) s
  · rfl

/-- The FSM's transition, whatever the state: DECODE goes by the class of `cause_q`, LOG's end by `class_q`. -/
theorem fsmTransition_eq (s : State) :
    fsmTransition s = dispatchStep (atDecode (selectClass s.cause_q)) (atLogEnd s.class_q) s := by
  unfold fsmTransition
  cases hf : s.fsm_state
  case idle =>
    simp only [currentOp, hf]
    cases ht : (signals s).trap with
    | none => simp [dispatchStep, hf, acceptRequest_none ht]
    | some r => simp [exec_cause (opClass_decodeCause r.cause), dispatchStep, hf]
  case decode => simp [currentOp, hf, exec_cause (opClass_decodeCause s.cause_q), dispatchStep]
  case halted => simp [currentOp, dispatchStep, hf]
  case undef => simp [currentOp, dispatchStep, hf]
  all_goals simp [currentOp, hf, exec_ofClass, dispatchStep]

/-- The step of a busy state, when no request nests. -/
def busyStep (atDecode atLogEnd : State → State) (s : State) : State :=
  match s.fsm_state with
  | .decode => atDecode s
  | .log => emitStep atLogEnd s
  | .timerRead => timerReadStep s
  | .timerWrite => timerWriteStep s
  | .resume => resumeStep s
  | .panicLog => emitStep (goto .haltWrite) s
  | .haltWrite => haltWriteStep s
  | .idle => s
  | .halted => s
  | .undef => s

/-- A busy state always answers with a next state: UNDEF when a request nests, else its own step. -/
theorem dispatchStep_busy {d l : State → State} {s : State} (h : isBusy s.fsm_state = true) :
    dispatchStep d l s = .next (unlessNested (busyStep d l) s) := by
  cases hf : s.fsm_state <;> simp [hf, isBusy] at h <;> simp [dispatchStep, hf, unlessNested, busyStep]

/-- Everything the FSM's transition can answer with a next state. -/
theorem fsmTransition_cases {s t : State} (h : fsmTransition s = .next t) :
    (s.fsm_state = .idle ∧ (signals s).trap = none ∧ t = s) ∨
    (∃ r, s.fsm_state = .idle ∧ (signals s).trap = some r ∧ frameOverlapsDevice s.cfg r.frame = false ∧
      frameIsStored s.mem r.frame = true ∧ t = latchRequest r s) ∨
    (isBusy s.fsm_state = true ∧ (signals s).trap.isSome = true ∧ t = raiseUndef .nested s) ∨
    (isBusy s.fsm_state = true ∧ (signals s).trap = none ∧
      t = busyStep (atDecode (selectClass s.cause_q)) (atLogEnd s.class_q) s) ∨
    ((s.fsm_state = .halted ∨ s.fsm_state = .undef) ∧ t = s) := by
  rw [fsmTransition_eq] at h
  by_cases hb : isBusy s.fsm_state = true
  · rw [dispatchStep_busy hb] at h
    injection h with h
    cases ht : (signals s).trap with
    | none => rw [unlessNested_quiet ht] at h; exact .inr (.inr (.inr (.inl ⟨hb, rfl, h.symm⟩)))
    | some r => rw [unlessNested_nested ht] at h; exact .inr (.inr (.inl ⟨hb, rfl, h.symm⟩))
  · cases hf : s.fsm_state <;> simp [hf, isBusy] at hb
    · simp only [dispatchStep, hf] at h
      obtain ⟨h0, rfl⟩ | ⟨r, hr, hc, hs, rfl⟩ := acceptRequest_cases h
      · exact .inl ⟨rfl, h0, rfl⟩
      · exact .inr (.inl ⟨r, rfl, hr, hc, hs, rfl⟩)
    · simp only [dispatchStep, hf] at h
      injection h with h
      exact .inr (.inr (.inr (.inr ⟨.inl rfl, h.symm⟩)))
    · simp only [dispatchStep, hf] at h
      injection h with h
      exact .inr (.inr (.inr (.inr ⟨.inr rfl, h.symm⟩)))

/-! ## The step -/

theorem mapNext_next {f : State → State} {o : Out} {t : State} (h : mapNext f o = .next t) :
    ∃ u, o = .next u ∧ t = f u := by
  cases o with
  | next u => injection h with h; exact ⟨u, rfl, h.symm⟩
  | fault r => cases h
  | refused r => cases h

theorem step_wf {s : State} (h : instanceWf s.cfg = true) : step s = mapNext endStep (takeInput (beginStep s)) := by
  simp [step, h]

theorem step_illFormed {s : State} (h : instanceWf s.cfg = false) : step s = .refused .illFormedInstance := by
  simp [step, h]

/-- A step that answers a next state is one input taken by a well-formed instance. -/
theorem step_cases {s t : State} (h : step s = .next t) :
    instanceWf s.cfg = true ∧ ∃ u, takeInput (beginStep s) = .next u ∧ t = endStep u := by
  unfold step at h
  split at h
  · next hw => exact ⟨hw, mapNext_next h⟩
  · cases h

/-- A step that acts on the FSM is the FSM's transition. -/
theorem takeInput_fsm {s : State} (h : fsmSteps s = true) : takeInput s = fsmTransition s := by
  unfold fsmSteps at h
  unfold takeInput
  split at h <;> simp_all

end Sys2Proof.Machine
end

