-- ==== Sys2Proof/Laws/Shape.lean ====
section
/-! SUPPORT. Every change one step can make, as one inductive relation with the guard of each change, and the inversion lemma
that says a step answering next makes one of them. Proofs over all steps go by cases on it. -/

namespace Sys2Proof.Machine

/-- The changes one input can make, with their guards. `s` is the state the step acts on, with the answer port cleared. -/
inductive Change (s : State) : State → Prop
  /-- IDLE with no request. -/
  | wait (fsm : fsmSteps s = true) (hf : s.fsm_state = .idle) (ht : (signals s).trap = none) : Change s s
  /-- IDLE accepts a request. -/
  | accept (r : TrapRequest) (fsm : fsmSteps s = true) (hf : s.fsm_state = .idle) (ht : (signals s).trap = some r)
      (hc : frameOverlapsDevice s.cfg r.frame = false) (hs : frameIsStored s.mem r.frame = true) :
      Change s (latchRequest r s)
  /-- A request in a busy state. -/
  | nested (fsm : fsmSteps s = true) (hb : isBusy s.fsm_state = true) (ht : (signals s).trap.isSome = true) :
      Change s (raiseUndef .nested s)
  /-- DECODE of a recoverable class. -/
  | decodeLog (fsm : fsmSteps s = true) (hf : s.fsm_state = .decode) (ht : (signals s).trap = none)
      (hc : tier (selectClass s.cause_q) = .recoverable) : Change s (decodeRecoverable (selectClass s.cause_q) s)
  /-- DECODE of a fatal class. -/
  | decodePanic (fsm : fsmSteps s = true) (hf : s.fsm_state = .decode) (ht : (signals s).trap = none)
      (hc : tier (selectClass s.cause_q) = .fatal) : Change s (raiseFatal (selectClass s.cause_q) s)
  /-- LOG or PANIC_LOG hands over a byte. -/
  | emit (b : Byte) (bs : List Byte) (fsm : fsmSteps s = true) (hf : s.fsm_state = .log ∨ s.fsm_state = .panicLog)
      (ht : (signals s).trap = none) (he : (signals s).bus_error = false) (hd : s.diag_q = b :: bs) :
      Change s { s with diag_q := bs, uart_tx := s.uart_tx ++ [b], bus := s.bus ++ [uartOp s.cfg b] }
  /-- The byte is answered `error`. -/
  | emitError (b : Byte) (bs : List Byte) (fsm : fsmSteps s = true)
      (hf : s.fsm_state = .log ∨ s.fsm_state = .panicLog) (ht : (signals s).trap = none)
      (he : (signals s).bus_error = true) (hd : s.diag_q = b :: bs) :
      Change s (raiseUndef .busError { s with bus := s.bus ++ [.writeError .uart s.cfg.uart_base 1 (b.setWidth 64)] })
  /-- The end of LOG, by the class. -/
  | logSkip (fsm : fsmSteps s = true) (hf : s.fsm_state = .log) (ht : (signals s).trap = none) (hd : s.diag_q = [])
      (hc : skips s.class_q = true) : Change s (goto .resume (skip s))
  | logTimer (fsm : fsmSteps s = true) (hf : s.fsm_state = .log) (ht : (signals s).trap = none) (hd : s.diag_q = [])
      (hc : s.class_q = .timer) : Change s (goto .timerRead s)
  | logKeep (fsm : fsmSteps s = true) (hf : s.fsm_state = .log) (ht : (signals s).trap = none) (hd : s.diag_q = [])
      (hc : skips s.class_q = false) (hn : s.class_q ≠ .timer) : Change s (goto .resume s)
  /-- TIMER_READ. -/
  | readTime (fsm : fsmSteps s = true) (hf : s.fsm_state = .timerRead) (ht : (signals s).trap = none)
      (he : (signals s).bus_error = false) :
      Change s { s with now_q := s.mtime, fsm_state := .timerWrite,
                        bus := s.bus ++ [.read .mtime s.cfg.mtime_addr 8 s.mtime] }
  | readTimeError (fsm : fsmSteps s = true) (hf : s.fsm_state = .timerRead) (ht : (signals s).trap = none)
      (he : (signals s).bus_error = true) :
      Change s (raiseUndef .busError { s with bus := s.bus ++ [.readError .mtime s.cfg.mtime_addr 8] })
  /-- TIMER_WRITE. -/
  | rearm (fsm : fsmSteps s = true) (hf : s.fsm_state = .timerWrite) (ht : (signals s).trap = none)
      (he : (signals s).bus_error = false) :
      Change s { s with mtimecmp := s.now_q + tick, fsm_state := .resume,
                        bus := s.bus ++ [.write .mtimecmp s.cfg.mtimecmp_addr 8 (s.now_q + tick)] }
  | rearmError (fsm : fsmSteps s = true) (hf : s.fsm_state = .timerWrite) (ht : (signals s).trap = none)
      (he : (signals s).bus_error = true) :
      Change s (raiseUndef .busError
        { s with bus := s.bus ++ [.writeError .mtimecmp s.cfg.mtimecmp_addr 8 (s.now_q + tick)] })
  /-- RESUME, with and without `resume_ready_i`. -/
  | resumed (fsm : fsmSteps s = true) (hf : s.fsm_state = .resume) (ht : (signals s).trap = none)
      (hr : (signals s).resume_ready = true) : Change s (goto .idle s)
  | resuming (fsm : fsmSteps s = true) (hf : s.fsm_state = .resume) (ht : (signals s).trap = none)
      (hr : (signals s).resume_ready = false) : Change s s
  /-- The end of PANIC_LOG, and HALT_WRITE. -/
  | panicEnd (fsm : fsmSteps s = true) (hf : s.fsm_state = .panicLog) (ht : (signals s).trap = none)
      (hd : s.diag_q = []) : Change s (goto .haltWrite s)
  | halt (fsm : fsmSteps s = true) (hf : s.fsm_state = .haltWrite) (ht : (signals s).trap = none)
      (he : (signals s).bus_error = false) :
      Change s { s with halted_q := true, fsm_state := .halted,
                        halt_seen := s.halt_seen ++ [lowBytes (sizeBytes s.cfg.halt_width) s.cfg.halt_value],
                        bus := s.bus ++ [.write .halt s.cfg.halt_addr (sizeBytes s.cfg.halt_width)
                          (lowBytes (sizeBytes s.cfg.halt_width) s.cfg.halt_value)] }
  | haltError (fsm : fsmSteps s = true) (hf : s.fsm_state = .haltWrite) (ht : (signals s).trap = none)
      (he : (signals s).bus_error = true) :
      Change s (raiseUndef .busError
        { s with bus := s.bus ++ [.writeError .halt s.cfg.halt_addr (sizeBytes s.cfg.halt_width)
                          (lowBytes (sizeBytes s.cfg.halt_width) s.cfg.halt_value)] })
  /-- HALTED and UNDEF keep every register. -/
  | stuck (fsm : fsmSteps s = true) (hf : s.fsm_state = .halted ∨ s.fsm_state = .undef) : Change s s
  /-- An accessor request: a check fails, the bus answers `error`, or the field is answered. -/
  | accCheck (off : BitVec 10) (e : Bool) (rest : List Input) (r : FrameFault) (hi : s.inputs = .read off e :: rest)
      (hc : frameCheck s off = some r) : Change s { s with acc_answer := some (.error r) }
  | accError (off : BitVec 10) (rest : List Input) (hi : s.inputs = .read off true :: rest)
      (hc : frameCheck s off = none) :
      Change s { s with acc_answer := some (.error .busError)
                        bus := s.bus ++ [.readError .frame (fieldAddr s.frame_q off) 8] }
  | accData (off : BitVec 10) (rest : List Input) (v : Word) (hi : s.inputs = .read off false :: rest)
      (hc : frameCheck s off = none) (hm : memRead s.mem (fieldAddr s.frame_q off) 8 = some v) :
      Change s { s with acc_answer := some (.data v), bus := s.bus ++ [.read .frame (fieldAddr s.frame_q off) 8 v] }
  /-- Reset and the outside world. -/
  | reset (rest : List Input) (hi : s.inputs = .reset :: rest) : Change s (resetBlock s)
  | time (now : Word) (rest : List Input) (hi : s.inputs = .time now :: rest) : Change s (platformTime now s)
  | compare (who : Agent) (d : Word) (rest : List Input) (hi : s.inputs = .compare who d :: rest)
      (hb : hartBreaksBusy who s = false) : Change s { s with mtimecmp := d }
  | receive (st d : Byte) (rest : List Input) (hi : s.inputs = .receive st d :: rest) :
      Change s (platformReceive st d s)
  | pend (o : Option TrapRequest) (rest : List Input) (hi : s.inputs = .pend o :: rest) : Change s (platformPend o s)
  /-- A store from outside: to the channel, to the compare register, to the halt device, or to memory. -/
  | storeUart (who : Agent) (v : Word) (rest : List Input) (hi : s.inputs = .store who s.cfg.uart_base .b1 v :: rest)
      (hb : hartBreaksBusy who s = false) : Change s { s with uart_tx := s.uart_tx ++ [v.setWidth 8] }
  | storeCompare (who : Agent) (v : Word) (rest : List Input)
      (hi : s.inputs = .store who s.cfg.mtimecmp_addr .b8 v :: rest) (hb : hartBreaksBusy who s = false) :
      Change s { s with mtimecmp := v }
  | storeHalt (who : Agent) (v : Word) (rest : List Input)
      (hi : s.inputs = .store who s.cfg.halt_addr s.cfg.halt_width v :: rest) (hb : hartBreaksBusy who s = false) :
      Change s { s with halt_seen := s.halt_seen ++ [lowBytes (sizeBytes s.cfg.halt_width) v] }
  | store (who : Agent) (addr : Word) (size : Size) (v : Word) (rest : List Input)
      (hi : s.inputs = .store who addr size v :: rest) (hb : hartBreaksBusy who s = false)
      (hn : deviceWriteAt s.cfg addr size = none)
      (hd : ((deviceRegions s.cfg).any fun r => touches r addr (sizeBytes size)) = false)
      (hl : (frameLive s.fsm_state && touches (frameRegion s.frame_q) addr (sizeBytes size)) = false) :
      Change s { s with mem := memWrite s.mem addr (sizeBytes size) v }

/-- A byte handed to the channel and taken off the list. -/
theorem emit_ok {b : Byte} {bs : List Byte} {s : State} (he : (signals s).bus_error = false) :
    busWrite .uart (b.setWidth 64) (fun t => { t with diag_q := bs }) s =
      { s with diag_q := bs, uart_tx := s.uart_tx ++ [b], bus := s.bus ++ [uartOp s.cfg b] } := by
  rw [busWrite_ok he, deviceWrite, show (b.setWidth 64).setWidth 8 = b by simp]
  rfl

/-- The emission of LOG and PANIC_LOG, or the state's end. -/
theorem emitStep_change {s : State} {f : State → State} (fsm : fsmSteps s = true)
    (hf : s.fsm_state = .log ∨ s.fsm_state = .panicLog) (ht : (signals s).trap = none)
    (hend : s.diag_q = [] → Change s (f s)) : Change s (emitStep f s) := by
  cases hd : s.diag_q with
  | nil => rw [emitStep_nil hd]; exact hend hd
  | cons b bs =>
    rw [emitStep_cons hd]
    cases he : (signals s).bus_error with
    | false => rw [emit_ok he]; exact .emit b bs fsm hf ht he hd
    | true => rw [busWrite_error he]; exact .emitError b bs fsm hf ht he hd

theorem atDecode_change {s : State} (fsm : fsmSteps s = true) (hf : s.fsm_state = .decode)
    (ht : (signals s).trap = none) : Change s (atDecode (selectClass s.cause_q) s) := by
  rw [atDecode]
  cases hc : tier (selectClass s.cause_q) with
  | recoverable => exact .decodeLog fsm hf ht hc
  | fatal => exact .decodePanic fsm hf ht hc

theorem atLogEnd_change {s : State} (fsm : fsmSteps s = true) (hf : s.fsm_state = .log)
    (ht : (signals s).trap = none) (hd : s.diag_q = []) : Change s (atLogEnd s.class_q s) := by
  unfold atLogEnd
  by_cases hs : skips s.class_q = true
  · rw [if_pos hs]; exact .logSkip fsm hf ht hd hs
  · rw [if_neg hs]
    by_cases hc : s.class_q = .timer
    · rw [if_pos hc]; exact .logTimer fsm hf ht hd hc
    · rw [if_neg hc]; exact .logKeep fsm hf ht hd (by simpa using hs) hc

/-- The compare write answered ok, for any value (kept apart from `tick`, whose numeral is costly to unfold). -/
theorem rearm_ok (v : Word) {s : State} (he : (signals s).bus_error = false) :
    busWrite .mtimecmp v (goto .resume) s =
      { s with mtimecmp := v, fsm_state := .resume, bus := s.bus ++ [.write .mtimecmp s.cfg.mtimecmp_addr 8 v] } := by
  rw [busWrite_ok he]; rfl

theorem rearm_error (v : Word) {s : State} (he : (signals s).bus_error = true) :
    busWrite .mtimecmp v (goto .resume) s =
      raiseUndef .busError { s with bus := s.bus ++ [.writeError .mtimecmp s.cfg.mtimecmp_addr 8 v] } := by
  rw [busWrite_error he]; rfl

theorem busyStep_change {s : State} (fsm : fsmSteps s = true) (hb : isBusy s.fsm_state = true)
    (ht : (signals s).trap = none) :
    Change s (busyStep (atDecode (selectClass s.cause_q)) (atLogEnd s.class_q) s) := by
  cases hf : s.fsm_state <;> simp [hf, isBusy] at hb <;> simp only [busyStep, hf]
  case decode => exact atDecode_change fsm hf ht
  case log => exact emitStep_change fsm (.inl hf) ht (atLogEnd_change fsm hf ht)
  case timerRead =>
    cases he : (signals s).bus_error <;> simp only [timerReadStep, busReadTime, he]
    · exact .readTime fsm hf ht he
    · exact .readTimeError fsm hf ht he
  case timerWrite =>
    cases he : (signals s).bus_error <;> rw [timerWriteStep]
    · rw [rearm_ok _ he]; exact .rearm fsm hf ht he
    · rw [rearm_error _ he]; exact .rearmError fsm hf ht he
  case resume =>
    cases hr : (signals s).resume_ready <;> simp only [resumeStep, hr]
    · exact .resuming fsm hf ht hr
    · exact .resumed fsm hf ht hr
  case panicLog => exact emitStep_change fsm (.inr hf) ht (.panicEnd fsm hf ht)
  case haltWrite =>
    cases he : (signals s).bus_error <;> rw [haltWriteStep]
    · rw [busWrite_ok he]; exact .halt fsm hf ht he
    · rw [busWrite_error he]; exact .haltError fsm hf ht he

theorem fsmTransition_change {s t : State} (fsm : fsmSteps s = true) (h : fsmTransition s = .next t) : Change s t := by
  obtain ⟨hf, ht, rfl⟩ | ⟨r, hf, ht, hc, hs, rfl⟩ | ⟨hb, ht, rfl⟩ | ⟨hb, ht, rfl⟩ | ⟨hf, rfl⟩ := fsmTransition_cases h
  · exact .wait fsm hf ht
  · exact .accept r fsm hf ht hc hs
  · exact .nested fsm hb ht
  · exact busyStep_change fsm hb ht
  · exact .stuck fsm hf

/-- Whatever the head input, a next state is one of the changes. -/
theorem takeInput_change {s t : State} (h : takeInput s = .next t) : Change s t := by
  unfold takeInput at h
  split at h
  · next hi => exact fsmTransition_change (by simp [fsmSteps, hi]) h
  · next hi => exact fsmTransition_change (by simp [fsmSteps, hi]) h
  · next off e rest hi =>
    rw [accessorRequest_eq] at h
    have hacc : accBusError s = e := by simp [accBusError, hi]
    obtain ⟨r, hc, rfl⟩ | ⟨hc, he, rfl⟩ | ⟨v, hc, he, hm, rfl⟩ := accessorRead_cases h
    · exact .accCheck off e rest r hi hc
    · rw [hacc] at he; subst he; exact .accError off rest hi hc
    · rw [hacc] at he; subst he; exact .accData off rest v hi hc hm
  · next rest hi => injection h with h; subst h; exact .reset rest hi
  · next now rest hi => injection h with h; subst h; exact .time now rest hi
  · next who d rest hi =>
    rw [outsideCompare_eq] at h
    split at h
    · cases h
    · next hb => injection h with h; subst h; exact .compare who d rest hi (by simpa using hb)
  · next st d rest hi => injection h with h; subst h; exact .receive st d rest hi
  · next who addr size v rest hi =>
    obtain ⟨hb, ⟨d, hd, rfl⟩ | ⟨hn, hd, hl, rfl⟩⟩ := outsideStore_cases h
    · obtain ⟨rfl, rfl, e⟩ | ⟨rfl, rfl, e⟩ | ⟨rfl, rfl, e⟩ := deviceWriteAt_cases (v := v) hd <;> rw [e]
      · exact .storeUart who v rest hi hb
      · exact .storeCompare who v rest hi hb
      · exact .storeHalt who v rest hi hb
    · exact .store who addr size v rest hi hb hn hd hl
  · next o rest hi => injection h with h; subst h; exact .pend o rest hi

/-- Everything a step that answers next can do. -/
theorem step_change {s t : State} (h : step s = .next t) :
    instanceWf s.cfg = true ∧ ∃ u, Change (beginStep s) u ∧ t = endStep u := by
  obtain ⟨hw, u, hu, rfl⟩ := step_cases h
  exact ⟨hw, u, takeInput_change hu, rfl⟩

end Sys2Proof.Machine
end

