-- ==== Sys2Proof/Laws/Run.lean ====
section
/-! SUPPORT. Runs of several steps: one step at a time, and in two parts. -/

namespace Sys2Proof.Machine

/-- A run whose first step answers next goes on from there. -/
theorem run_next (M : Host.Core) {k : Nat} {s u : M.State} (h : M.step s = .next u) : M.run (k + 1) s = M.run k u := by
  simp [Host.Core.run, h]

/-- A run that answers next made a first step that answered next. -/
theorem run_succ_cases (M : Host.Core) {k : Nat} {s t : M.State} (h : M.run (k + 1) s = .next t) :
    ∃ u, M.step s = .next u ∧ M.run k u = .next t := by
  cases hs : M.step s with
  | next u => exact ⟨u, rfl, by rwa [run_next M hs] at h⟩
  | fault r => simp [Host.Core.run, hs] at h
  | refused r => simp [Host.Core.run, hs] at h

/-- A run in two parts. -/
theorem run_add (M : Host.Core) {a b : Nat} : ∀ {s u : M.State}, M.run a s = .next u →
    M.run (a + b) s = M.run b u := by
  induction a with
  | zero => intro s u h; injection h with h; rw [h, Nat.zero_add]
  | succ a ih =>
    intro s u h
    obtain ⟨v, hv, h⟩ := run_succ_cases M h
    rw [show a + 1 + b = a + b + 1 by omega, run_next M hv, ih h]

/-- `run_next` for this machine. -/
theorem core_run_next {k : Nat} {s u : State} (h : step s = .next u) :
    Sys2Proof.core.run (k + 1) s = Sys2Proof.core.run k u := run_next Sys2Proof.core h

end Sys2Proof.Machine
end

