-- ==== Sys2Proof/Tests/Slice0.lean ====
section
/-! SUPPORT. The model's own tests: well-formedness, decoding of words written out from the spec's tables, single steps on
small states with results taken from 95_test_vectors, and for each obligation with hypotheses a concrete state that meets them. -/

namespace Sys2Proof.Tests

-- one kernel evaluation at a time: each has its own thread and stack
set_option Elab.async false

open Sys2Proof Sys2Proof.Machine

/-! ## Helpers -/

/-- The next state of an outcome, if there is one. -/
def nextOf : Out → Option State
  | .next t => some t
  | .fault _ => none
  | .refused _ => none

/-- The outcome is a next state with a property. -/
def okWith (o : Out) (p : State → Bool) : Bool := (nextOf o).any p

/-- The outcome is this refusal. -/
def refusedWith (o : Out) (r : Refusal) : Bool :=
  match o with
  | .next _ => false
  | .fault _ => false
  | .refused q => q == r

/-- The outcome is this fault. -/
def faultsWith (o : Out) (f : Fault) : Bool :=
  match o with
  | .next _ => false
  | .fault g => g == f
  | .refused _ => false

theorem exists_next {o : Out} {p : State → Bool} (h : okWith o p = true) : ∃ t, o = .next t ∧ p t = true := by
  cases o with
  | next t => exact ⟨t, rfl, h⟩
  | fault f => cases h
  | refused r => cases h

/-- The epc of the test states. -/
def epc : Word := 0x80001000

/-- A request with this cause, on the frame at 0x80100000. -/
def req (cause : Word) : TrapRequest := trapLine epc cause

/-- A quiet FSM step. -/
def tickQuiet : Input := .tick ⟨none, false, false⟩

/-- A FSM step whose transaction is answered `error`. -/
def tickError : Input := .tick ⟨none, false, true⟩

theorem zeroCells_stored (n : Nat) : ∀ a k, k < n → (readByte (zeroCells a n) (a + k)).isSome = true := by
  induction n with
  | zero => intro a k h; cases h
  | succ n ih =>
    intro a k h
    cases k with
    | zero => simp [zeroCells, readByte]
    | succ k =>
      have := ih (a + 1) k (by omega)
      rw [show a + 1 + k = a + (k + 1) by omega] at this
      simpa [zeroCells, readByte] using this

/-- The stored frame at 0x80100000, all zeros. -/
def storedMem : List Host.Cell := zeroCells 0x80100000 536

theorem storedMem_stored : frameStored storedMem 0x80100000 := fun k hk _ => zeroCells_stored 536 0x80100000 k hk

/-- IDLE with these inputs. -/
def idleWith (ins : List Input) : State := { State.reset with inputs := ins }

/-- IDLE with these inputs, the frame of `req` stored. -/
def idleReady (ins : List Input) : State := { idleWith ins with mem := storedMem }

/-- The trap of `cause` in the FSM state `f`, as the rules leave it there, its frame stored. -/
def inState (f : FsmState) (cause : Word) (ins : List Input) : State :=
  { State.reset with
      fsm_state := f, epc_q := epc, cause_q := cause, frame_q := 0x80100000, inputs := ins,
      mem := storedMem,
      is_async_q := asyncBit cause, cnum_q := causeNumber cause, class_q := classOfCause cause,
      resume_q := resumeOf f (classOfCause cause) epc,
      halted_q := f == .halted, undef_q := f == .undef,
      undef_reason := if f = .undef then some .nested else none }

/-- The bytes of 95_test_vectors 2.4 at 0x80100208. -/
def vectorMem : List Host.Cell := [
  (0x80100208, 0x00), (0x80100209, 0x10), (0x8010020A, 0x20), (0x8010020B, 0x80),
  (0x8010020C, 0x00), (0x8010020D, 0x00), (0x8010020E, 0x00), (0x8010020F, 0x00)]

/-- A live frame (the block in RESUME, after ECALL_S) over this memory, asked for this offset. -/
def asks (m : List Host.Cell) (frame : Word) (off : BitVec 10) : State :=
  { inState .resume 9 [.read off false] with mem := m, frame_q := frame }

/-- Eight zero bytes but for the first, at an address. -/
def oneWord (a : Nat) (b : Byte) : List Host.Cell :=
  [(a, b), (a + 1, 0), (a + 2, 0), (a + 3, 0), (a + 4, 0), (a + 5, 0), (a + 6, 0), (a + 7, 0)]

/-! ## Well-formedness: one ill-formed term per check -/

theorem test_wf_refuses_async_3 : (Instr.asyncOther 0 3).wf = false := by decide
theorem test_wf_refuses_async_11 : (Instr.asyncOther 5 11).wf = false := by decide
theorem test_wf_refuses_sync_8 : (Instr.syncOther 0 8).wf = false := by decide
theorem test_wf_refuses_sync_15 : (Instr.syncOther 7 15).wf = false := by decide
theorem test_wf_accepts_others : (Instr.asyncOther 0 9).wf = true ∧ (Instr.syncOther 0 3).wf = true := by decide

/-! ## Instances: one ill-formed one per check (20_memory R63, R67; 00_scope R6) -/

theorem test_instance_misaligned_time :
    instanceWf { placeholderParams with mtime_addr := 0x2004 } = false := by decide +kernel
theorem test_instance_misaligned_halt :
    instanceWf { placeholderParams with halt_addr := 0x4002, halt_width := .b4 } = false := by decide +kernel
theorem test_instance_overlap :
    instanceWf { placeholderParams with mtime_addr := 0x1000 } = false := by decide +kernel
theorem test_instance_two_ready_bits :
    instanceWf { placeholderParams with rx_ready_mask := 0x03 } = false := by decide +kernel
theorem test_instance_uart_at_the_top :
    instanceWf { placeholderParams with uart_base := 0xFFFFFFFFFFFFFFFB } = false := by decide +kernel
theorem test_instance_ok : instanceWf placeholderParams = true := by decide +kernel

/-! ## Decoding: words from 30_encoding R111 and R112, and 95_test_vectors 2.1 -/

theorem test_decode_swi : decodeTableWord 64 0x8000000000000003 = some (.swi 0) := by decide +kernel
theorem test_decode_timer : decodeTableWord 64 0x800000000000F007 = some (.timer 0xF) := by decide +kernel
theorem test_decode_ext : decodeTableWord 64 0x800000000000000B = some (.ext 0) := by decide +kernel
theorem test_decode_asyncOther : decodeTableWord 64 0x8000000000000009 = some (.asyncOther 0 9) := by decide +kernel
theorem test_decode_illegal : decodeTableWord 64 0x0000000000000002 = some (.illegal 0) := by decide +kernel
theorem test_decode_ecallU : decodeTableWord 64 0x0000000000001008 = some (.ecallU 1) := by decide +kernel
theorem test_decode_ecallS : decodeTableWord 64 0x7FFFFFFFFFFFF009 = some (.ecallS 0x7FFFFFFFFFFFF) := by decide +kernel
theorem test_decode_ecallM : decodeTableWord 64 0x000000000000000B = some (.ecallM 0) := by decide +kernel
theorem test_decode_ipf : decodeTableWord 64 0x000000000000000C = some (.ipf 0) := by decide +kernel
theorem test_decode_lpf : decodeTableWord 64 0x000000000000000D = some (.lpf 0) := by decide +kernel
theorem test_decode_spf : decodeTableWord 64 0x000000000000000F = some (.spf 0) := by decide +kernel
theorem test_decode_syncOther : decodeTableWord 64 0x0000000000000003 = some (.syncOther 0 3) := by decide +kernel
theorem test_decode_frameRegs : decodeTableWord 16 0x0F8 = some (.frameRegs 31) := by decide +kernel
theorem test_decode_frameFregs : decodeTableWord 16 0x1F8 = some (.frameFregs 31) := by decide +kernel
theorem test_decode_frameSatp : decodeTableWord 16 0x200 = some .frameSatp := by decide +kernel
theorem test_decode_frameTrapStack : decodeTableWord 16 0x208 = some .frameTrapStack := by decide +kernel
theorem test_decode_frameHartid : decodeTableWord 16 0x210 = some .frameHartid := by decide +kernel

/-- D-FRM-8 to D-FRM-11, and an offset with a bit above bit 9 (30_encoding R114): refused by name. -/
theorem test_decode_rejects :
    decode [0x18, 0x02] = .error .badOffset ∧ decode [0x04, 0x00] = .error .badOffset ∧
    decode [0xF8, 0x02] = .error .badOffset ∧ decode [0x00, 0x03] = .error .badOffset ∧
    decode [0x00, 0x04] = .error .offsetTooWide ∧ decode [0x00] = .error .badLength ∧ decode [] = .error .badLength := by
  decide +kernel

/-- The rows' words, placed after reset, run as the first step: a cause word is accepted, an offset is answered. -/
theorem test_fetch_word :
    okWith (step (State.reset.withFetchWord 64 0x8000000000000007))
      (fun t => t.fsm_state == .decode && t.cause_q == 0x8000000000000007) = true ∧
    okWith (step (State.reset.withFetchWord 16 0x210)) (fun t => t.acc_answer == some (.error .noFrame)) = true := by
  decide +kernel

/-! ## Single steps of the cause operations (results from 95_test_vectors) -/

/-- D-ASY-1: SWI resumes at its epc. -/
theorem test_swi_logEnd : okWith (exec (.swi 0) (inState .log 0x8000000000000003 []))
    (fun t => t.fsm_state == .resume && t.resume_q == 0x80001000) = true := by decide +kernel

/-- V1: a counter of 1000 gives a compare value of 10001000. -/
theorem test_timer_rearms : okWith (exec (.timer 0) { inState .timerWrite 0x8000000000000007 [] with now_q := 1000 })
    (fun t => t.mtimecmp == 0x989A68 && t.fsm_state == .resume &&
      t.bus == [.write .mtimecmp 0x3000 8 0x989A68]) = true := by decide +kernel

/-- D-ASY-4: the sum wraps. -/
theorem test_timer_wraps : okWith (exec (.timer 0)
    { inState .timerWrite 0x8000000000000007 [] with now_q := 0xFFFFFFFFFFFFFFFF })
    (fun t => t.mtimecmp == 0x98967F) = true := by decide +kernel

/-- D-ASY-2: EXT resumes at its epc, with no transaction. -/
theorem test_ext_logEnd : okWith (exec (.ext 0) (inState .log 0x800000000000000B []))
    (fun t => t.fsm_state == .resume && t.resume_q == 0x80001000 && t.bus == []) = true := by decide +kernel

/-- D-ASY-10: cause 0 of an interrupt is fatal. -/
theorem test_asyncOther_decode : okWith (exec (.asyncOther 0 0) (inState .decode 0x8000000000000000 []))
    (fun t => t.fsm_state == .panicLog && t.class_q == .asyncOther && t.is_async_q) = true := by decide +kernel

/-- V3: ILLEGAL goes to the panic sequence. -/
theorem test_illegal_decode : okWith (exec (.illegal 0) (inState .decode 2 []))
    (fun t => t.fsm_state == .panicLog && t.class_q == .illegal && !t.is_async_q && t.cnum_q == 2) = true := by
  decide +kernel

/-- D-SYN-1: ECALL_U adds 4. -/
theorem test_ecallU_logEnd : okWith (exec (.ecallU 0) { inState .log 8 [] with resume_q := 0x10000 })
    (fun t => t.resume_q == 0x10004) = true := by decide +kernel

/-- V2: an environment call from supervisor mode at 0x80001000 resumes at 0x80001004. -/
theorem test_ecallS_logEnd : okWith (exec (.ecallS 0) (inState .log 9 []))
    (fun t => t.fsm_state == .resume && t.resume_q == 0x80001004) = true := by decide +kernel

/-- D-SYN-3: the addition wraps. -/
theorem test_ecallS_wraps : okWith (exec (.ecallS 0) { inState .log 9 [] with resume_q := 0xFFFFFFFFFFFFFFFC })
    (fun t => t.resume_q == 0) = true := by decide +kernel

/-- D-SYN-10: ECALL_M is fatal, although EXT has the same number. -/
theorem test_ecallM_decode : okWith (exec (.ecallM 0) (inState .decode 11 []))
    (fun t => t.fsm_state == .panicLog && t.class_q == .ecallM) = true := by decide +kernel

/-- D-SYN-6: an odd address is not checked. -/
theorem test_ipf_logEnd : okWith (exec (.ipf 0) { inState .log 12 [] with resume_q := 0x80000001 })
    (fun t => t.resume_q == 0x80000005) = true := by decide +kernel

/-- D-SYN-7. -/
theorem test_lpf_logEnd : okWith (exec (.lpf 0) { inState .log 13 [] with resume_q := 0x80005000 })
    (fun t => t.resume_q == 0x80005004 && t.fsm_state == .resume) = true := by decide +kernel

/-- D-SYN-8. -/
theorem test_spf_logEnd : okWith (exec (.spf 0) { inState .log 15 [] with resume_q := 0x80006000 })
    (fun t => t.resume_q == 0x80006004 && t.fsm_state == .resume) = true := by decide +kernel

/-- D-SYN-11: a breakpoint is fatal. -/
theorem test_syncOther_decode : okWith (exec (.syncOther 0 3) (inState .decode 3 []))
    (fun t => t.fsm_state == .panicLog && t.class_q == .syncOther) = true := by decide +kernel

/-- D-DH-1: a byte of the draw is one 1-byte write to UART_BASE. -/
theorem test_log_byte : okWith (step { inState .log 8 [] with diag_q := [0x6F, 0x6B] })
    (fun t => t.diag_q == [0x6B] && t.bus == [.write .uart 0x1000 1 0x6F] && t.fsm_state == .log) = true := by
  decide +kernel

/-- D-DH-5: a request in HALTED is ignored. -/
theorem test_halted_ignores : okWith (step (inState .halted 2 [presents (req 9)]))
    (fun t => t.fsm_state == .halted && t.bus == [] && !t.undef_q && t.cause_q == 2) = true := by decide +kernel

/-- D-DH-6: a request in LOG is UNDEF, and the byte of that step is not written. -/
theorem test_nested_log : okWith (step { inState .log 8 [presents (req 9)] with diag_q := [0x41] })
    (fun t => t.fsm_state == .undef && t.undef_q && t.bus == []) = true := by decide +kernel

/-- D-DH-8: a bus error in HALT_WRITE leaves `halted_q` 0. -/
theorem test_halt_error : okWith (step (inState .haltWrite 2 [tickError]))
    (fun t => t.fsm_state == .undef && !t.halted_q) = true := by decide +kernel

/-- D-ASY-12: a bus error on the counter read is UNDEF, with no compare write. -/
theorem test_timer_read_error : okWith (step (inState .timerRead 0x8000000000000007 [tickError]))
    (fun t => t.fsm_state == .undef && t.undef_q && t.mtimecmp == 0) = true := by decide +kernel

/-- D-DH-4: ACK completes the trap. -/
theorem test_resume_ack : okWith (step (inState .resume 9 [ack])) (fun t => t.fsm_state == .idle) = true := by
  decide +kernel

/-- D-DH-9, D-DH-10, D-DH-11: RESET leaves HALTED, UNDEF and TIMER_WRITE, with no transaction. -/
theorem test_reset_event : [FsmState.halted, .undef, .timerWrite].all (fun f =>
    okWith (step (inState f 7 [.reset]))
      (fun t => t.fsm_state == .idle && !t.halted_q && !t.undef_q && t.bus == [])) = true := by decide +kernel

/-- The output events of V1's TIMER_WRITE step, in the trace notation (30_encoding R116). -/
theorem test_trace_of_rearm :
    (nextOf (step { inState .timerWrite 0x8000000000000007 [] with now_q := 1000 })).map
        (outputEvents (inState .timerWrite 0x8000000000000007 [])) =
      some [.w 8 0x3000 0x989A68, .resume 0x80001000] := by decide +kernel

/-- Duty (b) of 60_exceptions R250: with the frame's last byte not stored the request has no meaning; with it, DECODE. -/
theorem test_frame_not_stored :
    refusedWith (step { idleReady [presents (req 9)] with mem := zeroCells 0x80100000 535 }) .frameNotStored = true ∧
    okWith (step (idleReady [presents (req 9)])) (fun t => t.fsm_state == .decode) = true := by decide +kernel

/-- 20_memory R66: a byte at UART_BASE is transmitted, eight bytes at MTIMECMP_ADDR are the deadline, HALT_VALUE at HALT_ADDR
signals termination; a byte at MTIMECMP_ADDR and one at UART_BASE+5 are refused (R80). -/
theorem test_outside_device_store :
    okWith (step (inState .log 9 [.store .other 0x1000 .b1 0x141])) (fun t => t.uart_tx == [0x41] && t.mem == storedMem) = true ∧
    okWith (step (idleWith [.store .hart 0x3000 .b8 77])) (fun t => t.mtimecmp == 77 && t.mem == []) = true ∧
    okWith (step (idleWith [.store .other 0x4000 .b8 0xA5A5A5A5A5A5A5A5])) (fun t => terminationSignals t == 1) = true ∧
    refusedWith (step (idleWith [.store .other 0x3000 .b1 1])) .outsideStoreToDevice = true ∧
    refusedWith (step (idleWith [.store .other 0x1005 .b1 1])) .outsideStoreToDevice = true := by decide +kernel

/-- 70_reset R290: an uncleared source presents its request in IDLE, and nests in no busy state. -/
theorem test_uncleared_source :
    okWith (step (idleReady [.pend (some (req 0x8000000000000003))]))
      (fun t => t.fsm_state == .idle && t.uncleared == some (req 0x8000000000000003)) = true ∧
    okWith (step { idleReady [] with uncleared := some (req 0x8000000000000003) })
      (fun t => t.fsm_state == .decode && t.cause_q == 0x8000000000000003) = true ∧
    okWith (step { inState .resume 0x8000000000000003 [] with uncleared := some (req 0x8000000000000003) })
      (fun t => t.fsm_state == .idle && !t.undef_q) = true := by decide +kernel

/-! ## Single steps of the accessor (95_test_vectors 2.4) -/

/-- D-FRM-1: FRAME_REGS reads regs[0] at the frame's first byte. -/
theorem test_frameRegs : okWith (exec (.frameRegs 0) (asks (oneWord 0x80100000 0x2A) 0x80100000 0))
    (fun t => t.acc_answer == some (.data 0x2A) && t.bus == [.read .frame 0x80100000 8 0x2A]) = true := by
  decide +kernel

/-- D-FRM-4: FRAME_FREGS reads fregs[31] at offset 0x1F8. -/
theorem test_frameFregs : okWith (exec (.frameFregs 31) (asks (oneWord 0x801001F8 7) 0x80100000 0x1F8))
    (fun t => t.acc_answer == some (.data 7)) = true := by decide +kernel

/-- D-FRM-5: FRAME_SATP reads at offset 0x200. -/
theorem test_frameSatp : okWith (exec .frameSatp (asks (oneWord 0x80100200 9) 0x80100000 0x200))
    (fun t => t.acc_answer == some (.data 9)) = true := by decide +kernel

/-- D-FRM-6: FRAME_TRAP_STACK assembles the bytes little-endian. -/
theorem test_frameTrapStack : okWith (exec .frameTrapStack (asks vectorMem 0x80100000 0x208))
    (fun t => t.acc_answer == some (.data 0x80201000)) = true := by decide +kernel

/-- D-FRM-16: FRAME_HARTID of the frame that ends exactly at 2^64. -/
theorem test_frameHartid_top :
    okWith (exec .frameHartid (asks (oneWord 0xFFFFFFFFFFFFFFF8 3) 0xFFFFFFFFFFFFFDE8 0x210))
    (fun t => t.acc_answer == some (.data 3)) = true := by decide +kernel

/-- D-FRM-8, D-FRM-14, D-FRM-15, D-FRM-17: each check has its reason, in order, and none reads the bus. -/
theorem test_frame_checks :
    okWith (step (asks vectorMem 0x80100000 0x218)) (fun t => t.acc_answer == some (.error .badOffset)) = true ∧
    okWith (step (idleWith [.read 0x004 false])) (fun t => t.acc_answer == some (.error .noFrame)) = true ∧
    okWith (step (asks vectorMem 0x80100004 0)) (fun t => t.acc_answer == some (.error .misaligned)) = true ∧
    okWith (step (asks vectorMem 0xFFFFFFFFFFFFFDF0 0))
      (fun t => t.acc_answer == some (.error .wraps) && t.bus == []) = true := by decide +kernel

/-! ## Witnesses: for each obligation with hypotheses, a concrete state and operands that meet them -/

theorem witness_DecodeEncodeRoundTrip :
    (Instr.asyncOther 0x7FFFFFFFFFFFF 0xFFF).wf = true ∧ (Instr.syncOther 0 0).wf = true ∧ (Instr.frameRegs 31).wf = true := by
  decide

theorem witness_EncodeDecodeRoundTrip :
    decodeOffset 0 = .ok (.frameRegs 0) ∧ decodeOffset 0x1F8 = .ok (.frameFregs 31) ∧ decodeOffset 0x210 = .ok .frameHartid := by
  decide +kernel

/-- A word that a row matches, and one that no row matches. -/
theorem witness_EveryCauseWordSelectsExactlyOneClass :
    (∃ r ∈ exactRows, (0x800000000000F007 : Word) &&& r.mask = r.matchBits) ∧
    (∀ r ∈ exactRows, (14 : Word) &&& r.mask ≠ r.matchBits) := by decide +kernel

theorem witness_IgnoredCauseBitsSelectNothing :
    (0x1008 : Word).getLsbD 63 = (8 : Word).getLsbD 63 ∧
    (0x1008 : Word).extractLsb' 0 12 = (8 : Word).extractLsb' 0 12 := by decide +kernel

/-- One state per clause: IDLE, DECODE, a later busy state, and an accessor request. -/
theorem witness_StepRunsTheDecodedOperation :
    (instanceWf (idleWith []).cfg = true ∧ (idleReady [presents (req 9)]).fsm_state = .idle ∧
      (idleReady [presents (req 9)]).inputs = .tick ⟨some (req 9), false, false⟩ :: [] ∧
      decodeTableWord 64 (req 9).cause.toNat = some (.ecallS 0)) ∧
    (fsmSteps (inState .decode 11 []) = true ∧ decodeTableWord 64 (inState .decode 11 []).cause_q.toNat = some (.ecallM 0)) ∧
    (isBusy (inState .haltWrite 2 [tickQuiet]).fsm_state = true ∧ (inState .haltWrite 2 [tickQuiet]).fsm_state ≠ .decode ∧
      fsmSteps (inState .haltWrite 2 [tickQuiet]) = true) ∧
    ((asks vectorMem 0x80100000 0x208).inputs = .read 0x208 false :: [] ∧
      decodeTableWord 16 (0x208 : BitVec 10).toNat = some .frameTrapStack) := by decide +kernel

/-- One ill-formed instance per disjunct. -/
theorem witness_IllFormedInstanceIsNotBuilt :
    (0x2004 : Word).toNat % 8 ≠ 0 ∧
    ({ placeholderParams with halt_addr := 0x4002 } : Params).halt_addr.toNat %
      sizeBytes ({ placeholderParams with halt_addr := 0x4002 } : Params).halt_width ≠ 0 ∧
    (mtimeRegion { placeholderParams with mtimecmp_addr := 0x2000 }).holds 0x2007 = true ∧
    (mtimecmpRegion { placeholderParams with mtimecmp_addr := 0x2000 }).holds 0x2007 = true ∧
    (uartRegion { placeholderParams with halt_addr := 0x1000 }).holds 0x1005 = true ∧
    (haltRegion { placeholderParams with halt_addr := 0x1000 }).holds 0x1005 = true ∧
    (uartRegion { placeholderParams with mtime_addr := 0x1000 }).holds 0x1000 = true ∧
    (mtimeRegion { placeholderParams with mtime_addr := 0x1000 }).holds 0x1000 = true ∧
    (uartRegion { placeholderParams with mtimecmp_addr := 0x1000 }).holds 0x1005 = true ∧
    (mtimecmpRegion { placeholderParams with mtimecmp_addr := 0x1000 }).holds 0x1005 = true ∧
    (mtimeRegion { placeholderParams with halt_addr := 0x2000 }).holds 0x2007 = true ∧
    (haltRegion { placeholderParams with halt_addr := 0x2000 }).holds 0x2007 = true ∧
    (mtimecmpRegion { placeholderParams with halt_addr := 0x3000 }).holds 0x3000 = true ∧
    (haltRegion { placeholderParams with halt_addr := 0x3000 }).holds 0x3000 = true := by decide +kernel

theorem witness_NoStepChangesTheParameters : ∃ t, step (idleReady [presents (req 9)]) = .next t ∧ t.cfg == placeholderParams :=
  exists_next (by decide +kernel)

/-- Clause 1; clause 2 with a busy step; clause 3. -/
theorem witness_AcceptanceLatchesTheRequest :
    (opClass (.lpf 0) = some .lpf ∧ (idleReady [presents (req 13)]).fsm_state = .idle ∧
      (signals (idleReady [presents (req 13)])).trap = some (req 13) ∧
      frameOverlapsDevice (idleReady []).cfg (req 13).frame = false ∧
      frameIsStored (idleReady []).mem (req 13).frame = true) ∧
    (∃ t, step (inState .log 9 [tickQuiet]) = .next t ∧ (t.fsm_state == .resume) = true) ∧
    ((inState .log 9 [tickQuiet]).inputs.head? ≠ some .reset ∧ (inState .log 9 [tickQuiet]).fsm_state ≠ .idle) ∧
    isBusy (inState .timerRead 7 []).fsm_state = true :=
  ⟨by decide +kernel, exists_next (by decide +kernel), by decide +kernel, by decide +kernel⟩

theorem witness_IdleWaitsForARequest :
    opClass (.swi 0) = some .swi ∧ (idleWith [tickQuiet]).fsm_state = .idle ∧ (signals (idleWith [tickQuiet])).trap = none ∧
    fsmSteps (idleWith [tickQuiet]) = true ∧ fsmSteps (idleWith []) = true := by decide +kernel

/-- A frame that ends one byte into the counter, and one that ends just below the channel. -/
theorem witness_FrameOverDeviceHasNoMeaning :
    (signals (idleWith [presents ⟨epc, 0, 9, 0, 0, 0x1DE9⟩])).trap = some ⟨epc, 0, 9, 0, 0, 0x1DE9⟩ ∧
    frameOverlapsDevice (idleWith []).cfg 0x1DE9 = true ∧ frameOverlapsDevice (idleWith []).cfg 0xDE8 = false ∧
    refusedWith (step (idleWith [presents ⟨epc, 0, 9, 0, 0, 0x1DE9⟩])) .frameOverlapsDevice = true := by decide +kernel

/-- A frame of which the last byte is missing, one of which none is, and one that crosses the top of the space. -/
theorem witness_UnstoredFrameHasNoMeaning :
    (opClass (.ecallS 0) = some .ecallS ∧ (signals (idleReady [presents (req 9)])).trap = some (req 9) ∧
      frameOverlapsDevice (idleReady []).cfg (req 9).frame = false ∧ Memory.wf storedMem = true) ∧
    (Memory.wf (zeroCells 0x80100000 535) = true ∧ readByte (zeroCells 0x80100000 535) 0x80100217 = none) ∧
    frameIsStored (zeroCells 0xFFFFFFFFFFFFFFF8 8) 0xFFFFFFFFFFFFFFF8 = true := by decide +kernel

theorem witness_DecodeOfRecoverableOperations :
    (∀ i ∈ [Instr.swi 0, .timer 0, .ext 0, .ecallU 0, .ecallS 0, .ipf 0, .lpf 0, .spf 0],
      ∃ c ∈ [TrapClass.swi, .timer, .ext, .ecallU, .ecallS, .ipf, .lpf, .spf], opClass i = some c) ∧
    (inState .decode 9 [tickQuiet]).fsm_state = .decode ∧ (signals (inState .decode 9 [tickQuiet])).trap = none := by
  decide +kernel

theorem witness_DecodeOfFatalOperations :
    (∀ i ∈ [Instr.illegal 0, .ecallM 0, .asyncOther 0 5, .syncOther 0 5],
      ∃ c ∈ [TrapClass.illegal, .ecallM, .asyncOther, .syncOther], opClass i = some c) ∧
    (inState .decode 2 []).fsm_state = .decode ∧ (signals (inState .decode 2 [])).trap = none := by decide +kernel

/-- Every number that has a class of its own, and one that has none, of both kinds. -/
theorem witness_DecodeStepClassifiesTheCause :
    [(0x8000000000000003 : Word), 0x8000000000000007, 0x800000000000000B, 0x8000000000000FFF, 2, 8, 9, 11, 12, 13, 15, 14].all
      (fun w => okWith (step (inState .decode w [tickQuiet]))
        (fun t => t.class_q == classOfCause w && t.cnum_q == causeNumber w)) = true ∧
    fsmSteps (inState .decode 2 [tickQuiet]) = true ∧ instanceWf (inState .decode 2 []).cfg = true := by decide +kernel

/-- LOG with one byte left: the bus ok, the bus in error, a nested request. -/
theorem witness_LogWritesTheHeadByte :
    opClass (.spf 0) = some .spf ∧
    [[tickQuiet], [tickError], [presents (req 9)]].all (fun ins =>
      let s := { inState .log 15 ins with diag_q := [0xFF] }
      s.fsm_state == .log && s.diag_q == [0xFF]) = true ∧
    (signals (inState .log 15 [tickError])).bus_error = true ∧ (signals (inState .log 15 [tickQuiet])).bus_error = false ∧
    (signals (inState .log 15 [presents (req 9)])).trap.isSome = true := by decide +kernel

theorem witness_LogEndDoesTheClassAction :
    (inState .log 8 []).fsm_state = .log ∧ (inState .log 8 []).diag_q = [] ∧ (signals (inState .log 8 [])).trap = none := by
  decide +kernel

theorem witness_LogEndStepGoesByTheClassRegister :
    [(8 : Word), 0x8000000000000007, 0x8000000000000003].all (fun w =>
      let s := inState .log w [tickQuiet]
      instanceWf s.cfg && s.fsm_state == .log && s.diag_q.isEmpty && fsmSteps s && (signals s).trap.isNone) = true ∧
    (inState .log 0x8000000000000007 []).class_q = .timer ∧ (inState .log 0x8000000000000003 []).class_q = .swi := by
  decide +kernel

theorem witness_PanicLogWritesTheRecord :
    opClass (.illegal 0) = some .illegal ∧ (inState .panicLog 2 []).fsm_state = .panicLog ∧
    ({ inState .panicLog 2 [tickError] with diag_q := [1, 2] } : State).diag_q = 1 :: [2] ∧
    (signals (inState .panicLog 2 [tickError])).bus_error = true ∧ (inState .panicLog 2 [tickQuiet]).diag_q = [] ∧
    (signals (inState .panicLog 2 [presents (req 9)])).trap.isSome = true := by decide +kernel

/-- A LOG step that hands over a byte. -/
theorem witness_DiagnosticBytesAreWrittenOnceInOrder :
    ∃ t, step { inState .log 8 [tickQuiet] with diag_q := [0x68, 0x69] } = .next t ∧
      (t.fsm_state == .log && uartWritten t == [0x68] && t.diag_q == [0x69]) = true :=
  exists_next (by decide +kernel)

theorem witness_TimerReadsTheCounterThenRearms :
    (signals (inState .timerRead 7 [tickQuiet])).trap = none ∧ (signals (inState .timerRead 7 [tickQuiet])).bus_error = false ∧
    (inState .timerRead 7 []).fsm_state = .timerRead ∧ (inState .timerWrite 7 []).fsm_state = .timerWrite := by
  decide +kernel

theorem witness_OnlyTimerWriteWritesTheCompareRegister :
    (∃ t, step (inState .timerWrite 0x8000000000000007 [tickQuiet]) = .next t ∧ (t.fsm_state == .resume) = true) ∧
    (∃ t, step (inState .timerWrite 0x8000000000000007 [.reset]) = .next t ∧ (t.mtimecmp == 0) = true) ∧
    ((inState .timerWrite 0x8000000000000007 [tickQuiet]).class_q = .timer ∧
      fsmSteps (inState .timerWrite 0x8000000000000007 [tickQuiet]) = true ∧
      (∀ who ∈ [Agent.hart, .other], (inState .timerWrite 0x8000000000000007 [tickQuiet]).inputs.head? ≠ some (.compare who 0))) :=
  ⟨exists_next (by decide +kernel), exists_next (by decide +kernel), by decide +kernel⟩

/-- The two sides of the boundary of 70_reset R291: 2^64 - 10_000_000, and one below it (D-ASY-5, D-ASY-6). -/
theorem witness_WrappedDeadlineLiesBelowTheCounter :
    (∃ t, exec (.timer 0) { inState .timerWrite 7 [] with now_q := 0xFFFFFFFFFF676980 } = .next t ∧
      (t.mtimecmp == 0) = true) ∧
    (∃ t, exec (.timer 0) { inState .timerWrite 7 [] with now_q := 0xFFFFFFFFFF67697F } = .next t ∧
      (t.mtimecmp == 0xFFFFFFFFFFFFFFFF) = true) :=
  ⟨exists_next (by decide +kernel), exists_next (by decide +kernel)⟩

theorem witness_ResumeHandshakeCompletesTheTrap :
    opClass (.ipf 0) = some .ipf ∧ (inState .resume 12 [ack]).fsm_state = .resume ∧ (signals (inState .resume 12 [ack])).trap = none ∧
    (signals (inState .resume 12 [ack])).resume_ready = true ∧ (signals (inState .resume 12 [])).resume_ready = false := by
  decide +kernel

theorem witness_HaltWriteSignalsAndHalts :
    opClass (.ecallM 0) = some .ecallM ∧ (inState .haltWrite 11 []).fsm_state = .haltWrite ∧
    (signals (inState .haltWrite 11 [])).trap = none ∧ (signals (inState .haltWrite 11 [])).bus_error = false ∧
    (signals (inState .haltWrite 11 [tickError])).bus_error = true ∧ (signals (inState .haltWrite 11 [tickError])).trap = none := by
  decide +kernel

/-- HALTED stepped with a request, and reset. -/
theorem witness_HaltedIsAbsorbing :
    (inState .halted 2 []).fsm_state = .halted ∧ fsmSteps (inState .halted 2 [presents (req 9)]) = true ∧
    okWith (step (inState .halted 2 [presents (req 9)])) (fun t => t.fsm_state == .halted) = true ∧
    (inState .halted 2 [.reset]).inputs.head? = some .reset ∧
    okWith (step (inState .halted 2 [.reset])) (fun t => t.fsm_state == .idle) = true := by decide +kernel

/-- Clause 1 in the first and the last busy state, clause 2 in the five states with a transaction, clause 3. -/
theorem witness_NestedRequestsAndBusErrorsEnterUndef :
    (isBusy (inState .decode 9 []).fsm_state = true ∧ isBusy (inState .resume 9 []).fsm_state = true ∧
      (signals (inState .resume 9 [presents (req 9)])).trap.isSome = true) ∧
    [FsmState.log, .timerRead, .timerWrite, .panicLog, .haltWrite].all (fun f =>
      issuesTransaction { inState f 9 [tickError] with diag_q := [1] }) = true ∧
    (signals (inState .log 9 [tickError])).bus_error = true ∧
    okWith (step (inState .undef 9 [tickQuiet])) (fun t => t.fsm_state == .undef) = true ∧
    okWith (step (inState .undef 9 [.reset])) (fun t => t.fsm_state == .idle) = true ∧
    okWith (exec (.ecallS 0) (inState .halted 2 [presents (req 9)])) (fun t => !t.undef_q) = true ∧
    okWith (exec (.ecallS 0) (idleReady [presents (req 9)])) (fun t => !t.undef_q) = true := by decide +kernel

/-- The last field of the frame that ends exactly at 2^64, the field of D-FRM-6, and a check that fails. -/
theorem witness_AccessorAnswersTheStoredField :
    frameCheck (idleWith [.read 0 false]) 0 = some .noFrame ∧
    (Instr.frameHartid.offset? = some 0x210 ∧ frameLive FsmState.resume = true ∧
      (0xFFFFFFFFFFFFFDE8 : Word).toNat % 8 = 0 ∧ (0xFFFFFFFFFFFFFDE8 : Word).toNat + 536 ≤ 2 ^ 64 ∧
      accBusError (asks (oneWord 0xFFFFFFFFFFFFFFF8 3) 0xFFFFFFFFFFFFFDE8 0x210) = false ∧
      memRead (oneWord 0xFFFFFFFFFFFFFFF8 3) (0xFFFFFFFFFFFFFDE8 + (0x210 : BitVec 10).setWidth 64) 8 = some 3) ∧
    (Instr.frameTrapStack.offset? = some 0x208 ∧
      memRead vectorMem (0x80100000 + (0x208 : BitVec 10).setWidth 64) 8 = some 0x80201000) := by decide +kernel

/-- One state per check, at the boundary of its range. -/
theorem witness_FrameChecksFailInOrder :
    (idleWith [.read 0 false]).inputs = .read 0 false :: [] ∧ frameLive (idleWith []).fsm_state = false ∧
    frameLive (inState .halted 2 []).fsm_state = true ∧ ¬ ((0x218 : BitVec 10).toNat % 8 = 0 ∧ (0x218 : BitVec 10).toNat < 536) ∧
    ((0x210 : BitVec 10).toNat % 8 = 0 ∧ (0x210 : BitVec 10).toNat < 536) ∧ (0x80100004 : Word).toNat % 8 ≠ 0 ∧
    (0xFFFFFFFFFFFFFDF0 : Word).toNat + 536 > 2 ^ 64 ∧ (0xFFFFFFFFFFFFFDE8 : Word).toNat + 536 ≤ 2 ^ 64 ∧
    okWith (step (inState .halted 2 [.read 0x210 true])) (fun t => t.acc_answer == some (.error .busError)) = true := by
  decide +kernel

theorem witness_AccessorReadChangesNoRegister :
    (∃ t, step (asks vectorMem 0x80100000 0x208) = .next t ∧ (t.fsm_state == .resume) = true) ∧
    (asks vectorMem 0x80100000 0x208).inputs = .read 0x208 false :: [] ∧
    (∃ t, step { idleWith [] with acc_answer := some (.data 3) } = .next t ∧ (t.acc_answer == none) = true) :=
  ⟨exists_next (by decide +kernel), by decide +kernel, exists_next (by decide +kernel)⟩

/-- A frame of which only some fields are stored. -/
theorem witness_OnlyUnstoredFrameBytesFault :
    Instr.frameSatp.offset? = some 0x200 ∧ frameCheck (asks vectorMem 0x80100000 0x200) 0x200 = none ∧
    accBusError (asks vectorMem 0x80100000 0x200) = false ∧
    memRead (asks vectorMem 0x80100000 0x200).mem ((asks vectorMem 0x80100000 0x200).frame_q + (0x200 : BitVec 10).setWidth 64) 8 = none ∧
    faultsWith (step (asks vectorMem 0x80100000 0x200)) .frameByteNotStored = true := by decide +kernel

/-- A wholly stored frame at 0x80100000. -/
theorem witness_StoredFrameIsAlwaysReadable :
    let s := asks storedMem 0x80100000 0
    frameLive s.fsm_state = true ∧ s.frame_q.toNat % 8 = 0 ∧ s.frame_q.toNat + 536 ≤ 2 ^ 64 ∧ accBusError s = false ∧
      frameStored s.mem s.frame_q :=
  ⟨by decide +kernel, by decide +kernel, by decide +kernel, by decide +kernel, storedMem_stored⟩

/-- Every FSM state, as a trap of its kind reaches it, meets the invariant. -/
theorem witness_Inv (f : FsmState) (w : Word) (ins : List Input) (hc : classFits f (classOfCause w) = true) :
    Inv (inState f w ins) := by
  refine ⟨?_, rfl, rfl, ?_, fun _ => rfl, fun _ => ⟨rfl, rfl, rfl⟩, hc, fun _ => rfl, fun _ => ?_, fun _ => storedMem_stored⟩
  · exact (by decide +kernel : Memory.wf storedMem = true)
  · cases f <;> rfl
  · exact (by decide +kernel : frameOverlapsDevice placeholderParams 0x80100000 = false)

theorem witness_NoStepFaultsUnderTheInvariant : Inv (inState .resume 9 [.read 0x210 false]) ∧
    okWith (step (inState .resume 9 [.read 0x210 false])) (fun t => t.acc_answer == some (.data 0)) = true :=
  ⟨witness_Inv _ _ _ (by decide +kernel), by decide +kernel⟩

/-- A store just above a live frame, and the frame's first and last byte. -/
theorem witness_LiveFrameIsNeverWritten :
    ∃ t, step { asks [] 0x80100000 0 with inputs := [.store .other 0x80100218 .b8 5] } = .next t ∧
      (frameLive t.fsm_state && readByte t.mem 0x80100218 == some 5 && readByte t.mem 0x80100217 == none) = true :=
  exists_next (by decide +kernel)

/-- A write that wraps at the top of the space, at a byte beyond the wrap and just outside the eight; and a read. -/
theorem witness_AccessesAreLittleEndian :
    (∀ k, k < 8 → (5 : Nat) ≠ ((0xFFFFFFFFFFFFFFFD : Word) + BitVec.ofNat 64 k).toNat) ∧
    readByte (memWrite [] 0xFFFFFFFFFFFFFFFD 8 0x1122334455667788) 0 = some 0x55 ∧
    memRead vectorMem 0x80100208 4 = some 0x80201000 := by decide +kernel

theorem witness_EveryTransactionIsARowOfTheTable :
    ∃ t, step (inState .haltWrite 2 [tickQuiet]) = .next t ∧ (t.bus == [.write .halt 0x4000 8 0xA5A5A5A5A5A5A5A5]) = true :=
  exists_next (by decide +kernel)

theorem witness_EveryTransactionIsAligned :
    ∃ t, step (asks vectorMem 0x80100000 0x208) = .next t ∧ (t.bus == [.read .frame 0x80100208 8 0x80201000]) = true :=
  exists_next (by decide +kernel)

/-- A step that hands a byte to the channel, and one that signals the halt device. -/
theorem witness_DevicesReceiveEachWriteOnce :
    (∃ t, step { inState .log 8 [tickQuiet] with diag_q := [0x68] } = .next t ∧
      (t.uart_tx == [0x68] && t.halt_seen == []) = true) ∧
    (∃ t, step (inState .haltWrite 2 [tickQuiet]) = .next t ∧ (terminationSignals t == 1) = true) ∧
    (∀ who addr size v, (inState .haltWrite 2 [tickQuiet]).inputs.head? ≠ some (.store who addr size v)) :=
  ⟨exists_next (by decide +kernel), exists_next (by decide +kernel), fun _ _ _ _ h => by cases h⟩

theorem witness_ReceivePathChecksTheReadyBit :
    instanceWf State.reset.cfg = true ∧ (0x7F : Byte).getLsbD 7 = false ∧ (0x80 : Byte).getLsbD 7 = true ∧
    readNonblocking { State.reset with uart_status := 0x80, uart_data := 0x41 } = some 0x41 := by decide +kernel

theorem witness_CauseOperationFrame :
    opClass (.timer 0) = some .timer ∧
    ∃ t, exec (.timer 0) (inState .timerRead 0x8000000000000007 [tickQuiet]) = .next t ∧ (t.fsm_state == .timerWrite) = true :=
  ⟨rfl, exists_next (by decide +kernel)⟩

theorem witness_StatusRegisterIsNeverRead : (inState .decode 9 []).fsm_state ≠ .idle ∧
    (signals (idleWith [tickQuiet])).trap = none ∧ opClass (.ecallS 0) = some .ecallS ∧
    (idleReady [presents (req 9)]).fsm_state = .idle ∧ (signals (idleReady [presents (req 9)])).trap = some (req 9) ∧
    okWith (exec (.ecallS 0) (idleReady [presents (req 9)])) (fun t => t.status_q == 0) = true := by decide +kernel

theorem witness_TvalAndHartidReachOnlyDiagnostics : (inState .log 9 [tickQuiet]).fsm_state ≠ .idle ∧
    ∃ t, exec (.ecallS 0) (inState .log 9 [tickQuiet]) = .next t ∧ (t.fsm_state == .resume) = true :=
  ⟨by decide +kernel, exists_next (by decide +kernel)⟩

theorem witness_ResetEventIssuesNothing :
    instanceWf (inState .undef 9 [.reset]).cfg = true ∧ (inState .undef 9 [.reset]).inputs = .reset :: [] := by decide +kernel

theorem witness_OutputsFollowTheState : Inv (inState .resume 0x8000000000000007 [tickQuiet]) ∧
    Inv (inState .halted 2 [tickQuiet]) ∧ Inv (inState .undef 9 [tickQuiet]) ∧ Inv (inState .idle 9 [tickQuiet]) :=
  ⟨witness_Inv _ _ _ (by decide +kernel), witness_Inv _ _ _ (by decide +kernel), witness_Inv _ _ _ (by decide +kernel), witness_Inv _ _ _ (by decide +kernel)⟩

/-- Each clause, by the hart in IDLE and by another agent while the block is busy; the sentinel and another value. -/
theorem witness_OutsideDeviceWritesHaveTheirEffect :
    instanceWf placeholderParams = true ∧ isBusy (idleWith []).fsm_state = false ∧
    okWith (step (idleWith [.store .hart 0x1000 .b1 0xFF])) (fun t => t.uart_tx == [0xFF]) = true ∧
    okWith (step (inState .resume 9 [.store .other 0x3000 .b8 5])) (fun t => t.mtimecmp == 5) = true ∧
    okWith (step (inState .resume 9 [.compare .other 5])) (fun t => t.mtimecmp == 5) = true ∧
    okWith (step (idleWith [.store .other 0x4000 .b8 1])) (fun t => t.halt_seen == [1] && terminationSignals t == 0) = true := by
  decide +kernel

/-- One store per clause: by the busy hart, into a device, into a live frame, and one that keeps the contract. -/
theorem witness_OutsideStoresKeepTheEntryContract :
    refusedWith (step (inState .log 9 [.store .hart 0x80200000 .b1 1])) .hartAccessWhileBusy = true ∧
    refusedWith (step (idleWith [.store .hart 0x1005 .b1 1])) .outsideStoreToDevice = true ∧
    deviceWriteAt placeholderParams 0x1005 .b1 = none ∧
    refusedWith (step (inState .log 9 [.store .other 0x80100217 .b1 1])) .storeIntoLiveFrame = true ∧
    okWith (step (idleWith [.store .hart 0x80100000 .b2 0xBEEF]))
      (fun t => t.mem == [(0x80100000, 0xEF), (0x80100001, 0xBE)]) = true := by decide +kernel

theorem witness_EveryStepKeepsTheInvariant : Inv (inState .timerWrite 0x8000000000000007 [tickQuiet]) ∧
    ∃ t, step (inState .timerWrite 0x8000000000000007 [tickQuiet]) = .next t ∧ (t.fsm_state == .resume) = true :=
  ⟨witness_Inv _ _ _ (by decide +kernel), exists_next (by decide +kernel)⟩

/-- Each clause in RESUME: an interrupt, and a skipping exception. -/
theorem witness_PresentedResumeAddress : Inv (inState .resume 0x8000000000000007 [tickQuiet]) ∧
    resume_valid_o (inState .resume 0x8000000000000007 [tickQuiet]) = true ∧
    ((0x8000000000000007 : Word).getLsbD 63 = true ∧ (0x8000000000000007 : Word).extractLsb' 0 12 ∈ [3#12, 7#12, 11#12]) ∧
    Inv (inState .resume 15 [tickQuiet]) ∧
    ((15 : Word).getLsbD 63 = false ∧ (15 : Word).extractLsb' 0 12 ∈ [8#12, 9#12, 12#12, 13#12, 15#12]) := by
  exact ⟨witness_Inv _ _ _ (by decide +kernel), by decide +kernel, by decide +kernel, witness_Inv _ _ _ (by decide +kernel),
    by decide +kernel⟩

/-- Each clause: an interrupt and an exception that are fatal, in the states they reach. -/
theorem witness_FatalCausesNeverResume : Inv (inState .panicLog 2 [tickQuiet]) ∧
    ((2 : Word).getLsbD 63 = false ∧ (2 : Word).extractLsb' 0 12 ∉ [8#12, 9#12, 12#12, 13#12, 15#12]) ∧
    Inv (inState .haltWrite 0x8000000000000005 [tickQuiet]) ∧
    ((0x8000000000000005 : Word).getLsbD 63 = true ∧ (0x8000000000000005 : Word).extractLsb' 0 12 ∉ [3#12, 7#12, 11#12]) := by
  exact ⟨witness_Inv _ _ _ (by decide +kernel), by decide +kernel, witness_Inv _ _ _ (by decide +kernel), by decide +kernel⟩

theorem witness_RecoverableTrapReachesResume :
    instanceWf (idleReady [presents (req 9)]).cfg = true ∧ (idleReady [presents (req 9)]).fsm_state = .idle ∧
    (idleReady [presents (req 9)]).inputs = .tick ⟨some (req 9), false, false⟩ :: [] ∧
    [tickQuiet, ack].all quiet = true ∧ frameOverlapsDevice (idleReady []).cfg (req 9).frame = false ∧
    frameIsStored (idleReady []).mem (req 9).frame = true ∧
    classOfCause (req 9).cause ∈ [TrapClass.swi, .ext, .ecallU, .ecallS, .ipf, .lpf, .spf] := by decide +kernel

theorem witness_TimerTrapReachesResume :
    instanceWf (idleReady [presents (req 0x8000000000000007)]).cfg = true ∧ (idleReady [presents (req 0x8000000000000007)]).fsm_state = .idle ∧
    (idleReady [presents (req 0x8000000000000007)]).inputs = .tick ⟨some (req 0x8000000000000007), false, false⟩ :: [] ∧ ([] : List Input).all quiet = true ∧
    frameOverlapsDevice (idleReady []).cfg (req 0x8000000000000007).frame = false ∧
    frameIsStored (idleReady []).mem (req 0x8000000000000007).frame = true ∧
    classOfCause (req 0x8000000000000007).cause = .timer := by decide +kernel

theorem witness_UnclearedInterruptRetrapsWithoutEnd :
    (idleReady [.pend (some (req 0x8000000000000003))]).inputs = .pend (some (req 0x8000000000000003)) :: [] ∧
    (let s := { idleReady [] with uncleared := some (req 0x800000000000000B) }
     instanceWf s.cfg = true ∧ s.fsm_state = .idle ∧ s.inputs = [] ∧ s.uncleared = some (req 0x800000000000000B) ∧
       classOfCause (req 0x800000000000000B).cause ∈ [TrapClass.swi, .ext] ∧
       frameOverlapsDevice s.cfg (req 0x800000000000000B).frame = false ∧
       frameIsStored s.mem (req 0x800000000000000B).frame = true) := by decide +kernel

theorem witness_FatalTrapReachesHalted :
    instanceWf (idleReady [presents (req 2)]).cfg = true ∧ (idleReady [presents (req 2)]).fsm_state = .idle ∧
    (idleReady [presents (req 2)]).inputs = .tick ⟨some (req 2), false, false⟩ :: [] ∧ ([] : List Input).all quiet = true ∧
    frameOverlapsDevice (idleReady []).cfg (req 2).frame = false ∧
    frameIsStored (idleReady []).mem (req 2).frame = true ∧
    classOfCause (req 2).cause ∈ [TrapClass.illegal, .ecallM, .asyncOther, .syncOther] := by decide +kernel

/-- A run of one step that reaches HALTED. -/
theorem witness_SentinelIsWrittenExactlyOnce :
    (inState .haltWrite 2 [tickQuiet]).fsm_state ≠ .halted ∧
    (inState .haltWrite 2 [tickQuiet]).inputs.all (fun e => !isReset e) = true ∧
    ∃ t, Sys2Proof.core.run 1 (inState .haltWrite 2 [tickQuiet]) = .next t ∧ (t.fsm_state == .halted) = true :=
  ⟨by decide +kernel, by decide +kernel,
    exists_next (o := Sys2Proof.core.run 1 (inState .haltWrite 2 [tickQuiet])) (p := fun t => t.fsm_state == .halted)
      (by decide +kernel)⟩

end Sys2Proof.Tests
end

section
/-! PROOFS of the family 00_scope: the parameters of an instance are fixed when it is built (00_scope R7). -/

namespace Sys2Proof.Machine

/-- Each of the changes one input can make writes registers, devices, memory or the log of the bus, never `cfg`. -/
theorem Change.cfg_eq {s t : State} (h : Change s t) : t.cfg = s.cfg := by
  cases h <;> rfl

/-- A step that answers next keeps every parameter of the instance. -/
theorem step_cfg {s t : State} (h : step s = .next t) : t.cfg = s.cfg := by
  obtain ⟨-, u, hchange, rfl⟩ := step_change h
  calc (endStep u).cfg = u.cfg := endStep_cfg u
    _ = (beginStep s).cfg := hchange.cfg_eq
    _ = s.cfg := beginStep_cfg s

/-- Settles O10, by the changes a step can make. -/
theorem noStepChangesTheParameters : Obligations.NoStepChangesTheParameters := by
  unfold Obligations.NoStepChangesTheParameters
  exact fun _ _ h => step_cfg h

end Sys2Proof.Machine
end

section
/-! PROOFS of the family 10_state: acceptance latches the request (10_state R42), the resume handshake ends the trap (R44), and
nothing reads `status_q` (R26). -/

namespace Sys2Proof.Machine

/-! ## The resume handshake -/

theorem resumeStep_ready {s : State} (h : (signals s).resume_ready = true) : resumeStep s = goto .idle s := by
  simp [resumeStep, h]

theorem resumeStep_waiting {s : State} (h : (signals s).resume_ready = false) : resumeStep s = s := by
  simp [resumeStep, h]

/-- A cause operation in RESUME, with no request nesting, is the handshake. -/
theorem exec_cause_resume {i : Instr} {c : TrapClass} {s : State} (hi : opClass i = some c)
    (hf : s.fsm_state = .resume) (ht : (signals s).trap = none) : exec i s = .next (resumeStep s) := by
  rw [exec_cause hi, dispatchStep_resume _ _ hf, unlessNested_quiet ht]

/-- Settles O26, by the two values of `resume_ready_i`. -/
theorem resumeHandshakeCompletesTheTrap : Obligations.ResumeHandshakeCompletesTheTrap := by
  unfold Obligations.ResumeHandshakeCompletesTheTrap
  intro i c s hi hf ht
  rw [exec_cause_resume hi hf ht]
  refine ⟨fun hready => ?_, fun hwaiting => ⟨?_, ?_⟩⟩
  · rw [resumeStep_ready hready, goto]
  · rw [resumeStep_waiting hwaiting]
  · simp [resume_valid_o, hf]

/-! ## Acceptance, the one step that writes the latched request -/

/-- A cause operation in IDLE is acceptance. -/
theorem exec_cause_idle {i : Instr} {c : TrapClass} {s : State} (hi : opClass i = some c) (hf : s.fsm_state = .idle) :
    exec i s = acceptRequest s := by
  rw [exec_cause hi, dispatchStep_idle _ _ hf]

/-- The six registers that acceptance writes, as the request they hold. -/
def latched (s : State) : TrapRequest := ⟨s.epc_q, s.tval_q, s.cause_q, s.hartid_q, s.status_q, s.frame_q⟩

@[simp] theorem latched_beginStep (s : State) : latched (beginStep s) = latched s := rfl
@[simp] theorem latched_endStep (s : State) : latched (endStep s) = latched s := rfl

/-- Of the changes a step can make, acceptance and reset alone write the latched request. -/
theorem Change.latched_eq {s t : State} (h : Change s t) (hreset : s.inputs.head? ≠ some .reset)
    (haccept : ¬ (s.fsm_state = .idle ∧ (signals s).trap.isSome = true)) : latched t = latched s := by
  cases h
  case accept r _ hf ht _ _ => exact absurd ⟨hf, by simp [ht]⟩ haccept
  case reset rest hi => exact absurd (by simp [hi]) hreset
  all_goals rfl

/-- A step that neither accepts a request nor resets the block keeps the latched request. -/
theorem step_latched {s t : State} (h : step s = .next t) (hreset : s.inputs.head? ≠ some .reset)
    (haccept : ¬ (s.fsm_state = .idle ∧ (signals s).trap.isSome = true)) : latched t = latched s := by
  obtain ⟨-, u, hchange, rfl⟩ := step_change h
  calc latched (endStep u) = latched u := latched_endStep u
    _ = latched (beginStep s) := hchange.latched_eq hreset (by simpa using haccept)
    _ = latched s := latched_beginStep s

/-- An FSM step of a busy state on a request, in full: the request's payload does not occur in the answer. -/
theorem step_nested {s : State} {r : TrapRequest} (hfsm : fsmSteps s = true) (hbusy : isBusy s.fsm_state = true)
    (ht : (signals s).trap = some r) :
    step s = if instanceWf s.cfg then .next (endStep (raiseUndef .nested (beginStep s)))
      else .refused .illFormedInstance := by
  have htransition : takeInput (beginStep s) = .next (raiseUndef .nested (beginStep s)) := by
    rw [takeInput_fsm (s := beginStep s) hfsm, fsmTransition_eq, dispatchStep_busy (s := beginStep s) hbusy,
      unlessNested_nested (by rwa [signals_beginStep])]
  rw [step, htransition, mapNext]

/-- Settles O11: (1) by the equation of acceptance, (2) by the changes a step can make, (3) since a request in a busy state is
answered with UNDEF whatever it carries. -/
theorem acceptanceLatchesTheRequest : Obligations.AcceptanceLatchesTheRequest := by
  unfold Obligations.AcceptanceLatchesTheRequest
  refine ⟨?_, ?_, ?_⟩
  · intro i c s r hi hf ht hclear hstored
    rw [exec_cause_idle hi hf, acceptRequest_some ht hclear hstored, latchRequest]
  · intro s t hstep hreset haccept
    simpa [latched] using step_latched hstep hreset haccept
  · intro s r q ready err rest hbusy
    have hnested (x : TrapRequest) := step_nested (r := x)
      (s := { s with inputs := .tick ⟨some x, ready, err⟩ :: rest }) rfl hbusy rfl
    exact (hnested r).trans (hnested q).symm

/-! ## `status_q` is read by nothing

Each operation on states commutes with giving `status_q` another value (`Function.Commute`); acceptance overwrites it. -/

/-- `status_q` given the value `v`. -/
def setStatus (v : Word) (s : State) : State := { s with status_q := v }

@[simp] theorem setStatus_fsm_state (v : Word) (s : State) : (setStatus v s).fsm_state = s.fsm_state := rfl

@[simp] theorem signals_setStatus (v : Word) (s : State) : signals (setStatus v s) = signals s :=
  signals_congr rfl rfl rfl

theorem acceptRequest_setStatus {v : Word} {s : State} {r : TrapRequest} (ht : (signals s).trap = some r) :
    acceptRequest (setStatus v s) = acceptRequest s := by
  simp only [acceptRequest, signals_setStatus, ht]
  rfl

theorem goto_commute_setStatus (f : FsmState) (v : Word) : Function.Commute (goto f) (setStatus v) := fun _ => rfl

theorem deviceWrite_commute_setStatus (t : Target) (w v : Word) :
    Function.Commute (deviceWrite t w) (setStatus v) := fun _ => by cases t <;> rfl

/-- A bus write commutes with `setStatus` when the rest of its step does. -/
theorem busWrite_commute_setStatus {rest : State → State} {v : Word} (h : Function.Commute rest (setStatus v))
    (t : Target) (w : Word) : Function.Commute (busWrite t w rest) (setStatus v) := by
  intro s
  cases he : (signals s).bus_error
  · rw [busWrite_ok he, busWrite_ok (by simpa using he), ← h, ← deviceWrite_commute_setStatus]
    rfl
  · rw [busWrite_error he, busWrite_error (by simpa using he)]
    rfl

theorem emitStep_commute_setStatus {atEnd : State → State} {v : Word} (h : Function.Commute atEnd (setStatus v)) :
    Function.Commute (emitStep atEnd) (setStatus v) := by
  intro s
  cases hd : s.diag_q with
  | nil => rw [emitStep_nil hd, emitStep_nil (s := setStatus v s) hd, h]
  | cons b bs =>
    have hrest : Function.Commute (fun t : State => { t with diag_q := bs }) (setStatus v) := fun _ => rfl
    rw [emitStep_cons hd, emitStep_cons (s := setStatus v s) hd, busWrite_commute_setStatus hrest]

theorem timerReadStep_commute_setStatus (v : Word) : Function.Commute timerReadStep (setStatus v) := by
  intro s
  cases he : (signals s).bus_error <;> simp only [timerReadStep, busReadTime, signals_setStatus, he] <;> rfl

theorem timerWriteStep_commute_setStatus (v : Word) : Function.Commute timerWriteStep (setStatus v) :=
  fun s => busWrite_commute_setStatus (goto_commute_setStatus .resume v) .mtimecmp (s.now_q + tick) s

theorem haltWriteStep_commute_setStatus (v : Word) : Function.Commute haltWriteStep (setStatus v) := by
  have hrest : Function.Commute (fun t : State => { t with halted_q := true, fsm_state := .halted }) (setStatus v) :=
    fun _ => rfl
  exact fun s => busWrite_commute_setStatus hrest .halt (lowBytes (targetBytes s.cfg .halt) s.cfg.halt_value) s

theorem resumeStep_commute_setStatus (v : Word) : Function.Commute resumeStep (setStatus v) := by
  intro s
  cases hr : (signals s).resume_ready
  · rw [resumeStep_waiting hr, resumeStep_waiting (by simpa using hr)]
  · rw [resumeStep_ready hr, resumeStep_ready (by simpa using hr)]
    rfl

theorem atDecode_commute_setStatus (c : TrapClass) (v : Word) : Function.Commute (atDecode c) (setStatus v) := by
  intro s
  rw [atDecode]
  cases tier c <;> rfl

theorem atLogEnd_commute_setStatus (c : TrapClass) (v : Word) : Function.Commute (atLogEnd c) (setStatus v) := by
  intro s
  unfold atLogEnd
  split_ifs <;> rfl

/-- The step of a busy state commutes with `setStatus` when its DECODE and its end of LOG do. -/
theorem busyStep_commute_setStatus {d l : State → State} {v : Word} (hd : Function.Commute d (setStatus v))
    (hl : Function.Commute l (setStatus v)) : Function.Commute (busyStep d l) (setStatus v) := by
  intro s
  unfold busyStep
  cases hf : s.fsm_state <;> simp only [setStatus_fsm_state, hf]
  case decode => exact hd s
  case log => exact emitStep_commute_setStatus hl s
  case timerRead => exact timerReadStep_commute_setStatus v s
  case timerWrite => exact timerWriteStep_commute_setStatus v s
  case resume => exact resumeStep_commute_setStatus v s
  case panicLog => exact emitStep_commute_setStatus (goto_commute_setStatus .haltWrite v) s
  case haltWrite => exact haltWriteStep_commute_setStatus v s

theorem unlessNested_commute_setStatus {act : State → State} {v : Word} (h : Function.Commute act (setStatus v)) :
    Function.Commute (unlessNested act) (setStatus v) := by
  intro s
  cases ht : (signals s).trap with
  | none => rw [unlessNested_quiet ht, unlessNested_quiet (by simpa using ht), h]
  | some r =>
    rw [unlessNested_nested ht, unlessNested_nested (r := r) (by simpa using ht)]
    rfl

/-- Unless it accepts, the FSM's transition answers alike for every `status_q`, and leaves it alone. -/
theorem dispatchStep_setStatus {d l : State → State} {v : Word} {s : State} (hd : Function.Commute d (setStatus v))
    (hl : Function.Commute l (setStatus v)) (hwait : s.fsm_state ≠ .idle ∨ (signals s).trap = none) :
    dispatchStep d l (setStatus v s) = mapNext (setStatus v) (dispatchStep d l s) := by
  by_cases hbusy : isBusy s.fsm_state = true
  · rw [dispatchStep_busy hbusy, dispatchStep_busy (s := setStatus v s) hbusy,
      unlessNested_commute_setStatus (busyStep_commute_setStatus hd hl), mapNext]
  · cases hf : s.fsm_state <;> simp [hf, isBusy] at hbusy
    case idle =>
      have ht : (signals s).trap = none := hwait.resolve_left (not_not_intro hf)
      rw [dispatchStep_idle _ _ hf, dispatchStep_idle (s := setStatus v s) _ _ hf, acceptRequest_none ht,
        acceptRequest_none (by simpa using ht), mapNext]
    case halted => rw [dispatchStep_halted _ _ hf, dispatchStep_halted (s := setStatus v s) _ _ hf, mapNext]
    case undef => rw [dispatchStep_undef _ _ hf, dispatchStep_undef (s := setStatus v s) _ _ hf, mapNext]

/-- The accessor answers alike for every `status_q`, and leaves it alone. -/
theorem accessorRead_setStatus (off : BitVec 10) (v : Word) (s : State) :
    accessorRead off (setStatus v s) = mapNext (setStatus v) (accessorRead off s) := by
  have hcheck : frameCheck (setStatus v s) off = frameCheck s off := rfl
  have hbus : accBusError (setStatus v s) = accBusError s := rfl
  have hread : memRead (setStatus v s).mem (fieldAddr (setStatus v s).frame_q off) 8 =
      memRead s.mem (fieldAddr s.frame_q off) 8 := rfl
  unfold accessorRead
  rw [hcheck, hbus, hread]
  split
  · rfl
  · split
    · rfl
    · split <;> rfl

/-- An operation is a cause operation or an accessor operation. -/
theorem opClass_or_offset (i : Instr) : (∃ c, opClass i = some c) ∨ ∃ off, i.offset? = some off := by
  cases i <;> simp [opClass, Instr.offset?]

/-- Unless it accepts, every operation answers alike for every `status_q`, and leaves it alone. -/
theorem exec_setStatus (i : Instr) (v : Word) {s : State} (hwait : s.fsm_state ≠ .idle ∨ (signals s).trap = none) :
    exec i (setStatus v s) = mapNext (setStatus v) (exec i s) := by
  obtain ⟨c, hi⟩ | ⟨off, hi⟩ := opClass_or_offset i
  · simp only [exec_cause hi]
    exact dispatchStep_setStatus (atDecode_commute_setStatus c v) (atLogEnd_commute_setStatus c v) hwait
  · simp only [exec_accessor hi]
    exact accessorRead_setStatus off v s

/-- Acceptance answers alike for every `status_q`. -/
theorem exec_setStatus_accept {i : Instr} {c : TrapClass} {s : State} {r : TrapRequest} (v : Word)
    (hi : opClass i = some c) (hf : s.fsm_state = .idle) (ht : (signals s).trap = some r) :
    exec i (setStatus v s) = exec i s := by
  rw [exec_cause_idle hi hf, exec_cause_idle (s := setStatus v s) hi hf, acceptRequest_setStatus ht]

theorem exec_accept_status_q {i : Instr} {c : TrapClass} {s t : State} {r : TrapRequest} (hi : opClass i = some c)
    (hf : s.fsm_state = .idle) (ht : (signals s).trap = some r) (h : exec i s = .next t) : t.status_q = r.status := by
  rw [exec_cause_idle hi hf] at h
  obtain ⟨hnone, -⟩ | ⟨q, hq, -, -, rfl⟩ := acceptRequest_cases h
  · simp [ht] at hnone
  · obtain rfl : r = q := Option.some.inj (ht.symm.trans hq)
    exact latchRequest_status_q r s

/-- Settles O43: outside acceptance every operation commutes with `setStatus`; acceptance writes the presented status. -/
theorem statusRegisterIsNeverRead : Obligations.StatusRegisterIsNeverRead := by
  unfold Obligations.StatusRegisterIsNeverRead
  exact ⟨fun i _ v hwait => exec_setStatus i v hwait, fun _ _ _ _ v hi hf ht =>
    ⟨exec_setStatus_accept v hi hf ht, fun _ hexec => exec_accept_status_q hi hf ht hexec⟩⟩

end Sys2Proof.Machine
end

section
/-! PROOFS of the family 20_memory: little-endian accesses (20_memory R62), the table of access widths (R64) and the receive
path (R72). -/

namespace Sys2Proof.Machine

/-! ## A word as its low byte and the rest -/

/-- The word whose byte 0 is `b` and whose bytes from 1 on are those of `v`: one step of `memRead`. -/
def consByte (b : Byte) (v : Word) : Word := b.setWidth 64 ||| (v <<< 8)

theorem consByte_getLsbD (b : Byte) (v : Word) (i : Nat) (hi : i < 64) :
    (consByte b v).getLsbD i = if i < 8 then b.getLsbD i else v.getLsbD (i - 8) := by
  rw [consByte, BitVec.getLsbD_or, BitVec.getLsbD_setWidth, BitVec.getLsbD_shiftLeft]
  by_cases h : i < 8
  · simp [hi, h]
  · simp [hi, h, BitVec.getLsbD_of_ge b i (by omega), -BitVec.getLsbD_eq_getElem]

theorem byteOfWord_getLsbD (v : Word) (k j : Nat) : (byteOfWord v k).getLsbD j = (decide (j < 8) && v.getLsbD (8 * k + j)) :=
  BitVec.getLsbD_extractLsb' (8 * k) 8 v j

theorem byteOfWord_consByte_zero (b : Byte) (v : Word) : byteOfWord (consByte b v) 0 = b := by
  refine BitVec.eq_of_getLsbD_eq fun j hj => ?_
  rw [byteOfWord_getLsbD, consByte_getLsbD b v _ (by omega), if_pos (by omega)]
  simp only [hj, decide_true, Bool.true_and, Nat.mul_zero, Nat.zero_add]

theorem byteOfWord_consByte_succ (b : Byte) (v : Word) {k : Nat} (hk : k + 1 < 8) :
    byteOfWord (consByte b v) (k + 1) = byteOfWord v k := by
  refine BitVec.eq_of_getLsbD_eq fun j hj => ?_
  rw [byteOfWord_getLsbD, byteOfWord_getLsbD, consByte_getLsbD b v _ (by omega), if_neg (by omega),
    show 8 * (k + 1) + j - 8 = 8 * k + j by omega]

/-- Shifting a byte out moves every byte down by one. -/
theorem byteOfWord_ushiftRight (v : Word) (k : Nat) : byteOfWord (v >>> 8) k = byteOfWord v (k + 1) := by
  refine BitVec.eq_of_getLsbD_eq fun j _ => ?_
  rw [byteOfWord_getLsbD, byteOfWord_getLsbD, BitVec.getLsbD_ushiftRight,
    show 8 + (8 * k + j) = 8 * (k + 1) + j by omega]

theorem lowBytes_getLsbD (n : Nat) (v : Word) (i : Nat) (hi : i < 64) :
    (lowBytes n v).getLsbD i = (decide (i < 8 * n) && v.getLsbD i) := by
  simp [lowBytes, hi]

/-- The low `n + 1` bytes are byte 0 and, above it, the low `n` bytes of the rest. -/
theorem lowBytes_succ (n : Nat) (v : Word) : lowBytes (n + 1) v = consByte (byteOfWord v 0) (lowBytes n (v >>> 8)) := by
  refine BitVec.eq_of_getLsbD_eq fun i hi => ?_
  rw [lowBytes_getLsbD _ _ _ hi, consByte_getLsbD _ _ _ hi]
  by_cases h : i < 8
  · rw [if_pos h, byteOfWord_getLsbD, Nat.mul_zero, Nat.zero_add]
    simp only [h, show i < 8 * (n + 1) by omega]
  · rw [if_neg h, lowBytes_getLsbD _ _ _ (by omega), BitVec.getLsbD_ushiftRight, show 8 + (i - 8) = i by omega]
    simp only [show i < 8 * (n + 1) ↔ i - 8 < 8 * n by omega]

theorem lowBytes_toNat_lt (n : Nat) (v : Word) : (lowBytes n v).toNat < 2 ^ (8 * n) := by
  rw [lowBytes, BitVec.toNat_setWidth]
  exact (Nat.mod_le _ _).trans_lt (BitVec.isLt _)

/-! ## Little-endian accesses -/

/-- A read of `n + 1` bytes is the byte at its address and a read of `n` bytes from the next one. -/
theorem memRead_succ_eq_some {m : List Host.Cell} {addr w : Word} {n : Nat} :
    memRead m addr (n + 1) = some w ↔
      ∃ b v, readByte m addr.toNat = some b ∧ memRead m (addr + 1) n = some v ∧ consByte b v = w := by
  rw [memRead]
  cases readByte m addr.toNat <;> cases memRead m (addr + 1) n <;> simp [consByte]

/-- An address does not come again within 2^64 bytes above it. -/
theorem addr_ne_succ {addr : Word} {k : Nat} (hk : k + 1 < 2 ^ 64) :
    addr.toNat ≠ (addr + 1 + BitVec.ofNat 64 k).toNat := by
  rw [addr_succ, BitVec.toNat_add, BitVec.toNat_ofNat]
  omega

/-- `MemWrite` puts byte `k` of the value at `addr + k`, for every width that does not wrap onto itself. -/
theorem readByte_memWrite (n : Nat) : ∀ (m : List Host.Cell) (addr v : Word), n ≤ 2 ^ 64 → ∀ k, k < n →
    readByte (memWrite m addr n v) (addr + BitVec.ofNat 64 k).toNat = some (byteOfWord v k) := by
  induction n with
  | zero => intro m addr v _ k hk; omega
  | succ n ih =>
    intro m addr v hn k hk
    rw [memWrite]
    cases k with
    | zero =>
      have hkeep : ∀ j, j < n → addr.toNat ≠ (addr + 1 + BitVec.ofNat 64 j).toNat := fun j hj => addr_ne_succ (by omega)
      rw [BitVec.add_zero, readByte_memWrite_of_not_touched _ _ _ _ _ hkeep, readByte_writeByte_self]
    | succ k => rw [← addr_succ, ih _ _ _ (by omega) k (by omega), byteOfWord_ushiftRight]

/-- `MemRead` over the bytes of a value assembles its low bytes. -/
theorem memRead_of_bytes (n : Nat) : ∀ (m : List Host.Cell) (addr v : Word),
    (∀ k, k < n → readByte m (addr + BitVec.ofNat 64 k).toNat = some (byteOfWord v k)) →
    memRead m addr n = some (lowBytes n v) := by
  induction n with
  | zero => intro m addr v _; exact congrArg some (BitVec.eq_of_getLsbD_eq fun i hi => by simp [lowBytes_getLsbD _ _ _ hi])
  | succ n ih =>
    intro m addr v h
    have hhead : readByte m addr.toNat = some (byteOfWord v 0) := by simpa using h 0 (Nat.succ_pos n)
    have htail : memRead m (addr + 1) n = some (lowBytes n (v >>> 8)) := by
      refine ih _ _ _ fun k hk => ?_
      rw [addr_succ, h (k + 1) (by omega), byteOfWord_ushiftRight]
    exact memRead_succ_eq_some.2 ⟨_, _, hhead, htail, (lowBytes_succ n v).symm⟩

/-- The bytes of what `MemRead` answers are the bytes in memory. -/
theorem readByte_of_memRead (n : Nat) : ∀ {m : List Host.Cell} {addr w : Word}, n ≤ 8 → memRead m addr n = some w →
    ∀ k, k < n → readByte m (addr + BitVec.ofNat 64 k).toNat = some (byteOfWord w k) := by
  induction n with
  | zero => intro m addr w _ _ k hk; omega
  | succ n ih =>
    intro m addr w hn h k hk
    obtain ⟨b, v, hb, hv, rfl⟩ := memRead_succ_eq_some.1 h
    cases k with
    | zero => rw [BitVec.add_zero, hb, byteOfWord_consByte_zero]
    | succ k => rw [← addr_succ, ih (by omega) hv k (by omega), byteOfWord_consByte_succ b v (by omega)]

/-- What `MemRead` answers fits in its width: it is what its own bytes assemble to. -/
theorem memRead_toNat_lt {m : List Host.Cell} {addr w : Word} {n : Nat} (hn : n ≤ 8) (h : memRead m addr n = some w) :
    w.toNat < 2 ^ (8 * n) := by
  have hw : some (lowBytes n w) = some w := (memRead_of_bytes n m addr w (readByte_of_memRead n hn h)).symm.trans h
  rw [← Option.some.inj hw]
  exact lowBytes_toNat_lt n w

/-- Settles O37: the bytes written by induction on the width, the read-back from them, and the read from its own bytes. -/
theorem accessesAreLittleEndian : Obligations.AccessesAreLittleEndian := by
  unfold Obligations.AccessesAreLittleEndian
  intro m addr v n hn
  have hwritten := readByte_memWrite n m addr v (by omega)
  exact ⟨hwritten, readByte_memWrite_of_not_touched n m addr v, memRead_of_bytes n _ addr v hwritten,
    fun _ hread => ⟨memRead_toNat_lt hn hread, readByte_of_memRead n hn hread⟩⟩

/-! ## The table of access widths -/

/-- FrameCheck passes valid offsets only (43_frame_accessor R196, check 2). -/
theorem offsetValid_of_frameCheck {s : State} {off : BitVec 10} (h : frameCheck s off = none) : offsetValid off = true := by
  by_contra hinvalid
  have hinvalid : offsetValid off = false := by simpa using hinvalid
  cases hlive : frameLive s.fsm_state <;> simp [frameCheck, hlive, hinvalid] at h

/-- A byte widened to a word is a channel write's value. -/
theorem writeRow_uart (p : Params) (b : Byte) : writeRow p .uart p.uart_base 1 (b.setWidth 64) := by
  refine ⟨rfl, rfl, ?_⟩
  rw [BitVec.toNat_setWidth]
  exact (Nat.mod_le _ _).trans_lt b.isLt

theorem readRow_frame (p : Params) {s : State} {off : BitVec 10} (h : frameCheck s off = none) :
    readRow p s.frame_q .frame (fieldAddr s.frame_q off) 8 :=
  ⟨rfl, off, offsetValid_of_frameCheck h, rfl⟩

/-- A change issues no transaction, or one that is a row of the table, issued where the row says. -/
theorem Change.bus_cases {s t : State} (h : Change s t) :
    t.bus = s.bus ∨ ∃ op, t.bus = s.bus ++ [op] ∧ tableRow64 s.cfg s.frame_q op ∧ issuedFrom s (opTarget op) := by
  cases h
  case emit b _ _ hf _ _ _ => exact .inr ⟨_, rfl, writeRow_uart s.cfg b, hf⟩
  case emitError b _ _ hf _ _ _ => exact .inr ⟨_, rfl, writeRow_uart s.cfg b, hf⟩
  case readTime hf _ _ => exact .inr ⟨_, rfl, ⟨rfl, rfl⟩, hf⟩
  case readTimeError hf _ _ => exact .inr ⟨_, rfl, ⟨rfl, rfl⟩, hf⟩
  case rearm hf _ _ => exact .inr ⟨_, rfl, ⟨rfl, rfl⟩, hf⟩
  case rearmError hf _ _ => exact .inr ⟨_, rfl, ⟨rfl, rfl⟩, hf⟩
  case halt hf _ _ => exact .inr ⟨_, rfl, ⟨rfl, rfl, rfl⟩, hf⟩
  case haltError hf _ _ => exact .inr ⟨_, rfl, ⟨rfl, rfl, rfl⟩, hf⟩
  case accError off rest hi hc => exact .inr ⟨_, rfl, readRow_frame s.cfg hc, off, true, rest, hi⟩
  case accData off rest _ hi hc _ => exact .inr ⟨_, rfl, readRow_frame s.cfg hc, off, false, rest, hi⟩
  all_goals exact .inl rfl

@[simp] theorem issuedFrom_beginStep (s : State) (d : Target) : issuedFrom (beginStep s) d = issuedFrom s d := by
  cases d <;> rfl

/-- Settles O38, by the changes a step can make. -/
theorem everyTransactionIsARowOfTheTable : Obligations.EveryTransactionIsARowOfTheTable := by
  unfold Obligations.EveryTransactionIsARowOfTheTable
  intro s t h
  obtain ⟨-, u, hchange, rfl⟩ := step_change h
  simpa using hchange.bus_cases

/-! ## The receive path -/

/-- A one-bit mask is one of the eight bits (00_scope R6). -/
theorem oneBitMask_iff {m : Byte} : oneBitMask m = true ↔ ∃ k, k < 8 ∧ m = 1#8 <<< k := by
  simp [oneBitMask]

theorem rxReadyMask_of_instanceWf {p : Params} (h : instanceWf p = true) : ∃ k, k < 8 ∧ p.rx_ready_mask = 1#8 <<< k := by
  simp only [instanceWf, Bool.and_eq_true] at h
  exact oneBitMask_iff.1 h.2

/-- The receive path goes by the bit of the status byte that the mask names. -/
theorem readNonblocking_eq {s : State} {k : Nat} (hk : k < 8) (hmask : s.cfg.rx_ready_mask = 1#8 <<< k) :
    readNonblocking s = if s.uart_status.getLsbD k then some s.uart_data else none := by
  have hbit : BitVec.twoPow 8 k ≠ 0#8 := fun h => by
    simpa [BitVec.getLsbD_twoPow, hk] using congrArg (fun m => m.getLsbD k) h
  rw [readNonblocking, hmask, ← BitVec.twoPow_eq, BitVec.and_twoPow]
  cases s.uart_status.getLsbD k <;> simp [hbit]

/-- Settles O41, by the one bit of the mask. -/
theorem receivePathChecksTheReadyBit : Obligations.ReceivePathChecksTheReadyBit := by
  unfold Obligations.ReceivePathChecksTheReadyBit
  intro s hwf
  obtain ⟨k, hk, hmask⟩ := rxReadyMask_of_instanceWf hwf
  have hread := readNonblocking_eq hk hmask
  exact ⟨k, hk, hmask, fun hclear => by simp [hread, hclear], fun hset => by simp [hread, hset]⟩

end Sys2Proof.Machine
end

section
/-! PROOFS of the family 30_encoding: the two passes of the opcode map select exactly one class (30_encoding R110), by bit 63 and
bits 11:0 alone (R91). -/

namespace Sys2Proof

/-! ## The exact rows, pass 1 -/

theorem CauseRow.matches_iff {r : CauseRow} {w : Word} : r.matches w = true ↔ w &&& r.mask = r.matchBits := by
  simp [CauseRow.matches]

theorem mask_of_mem_exactRows : ∀ r ∈ exactRows, r.mask = exactMask := by decide

/-- The match bits name the row. -/
theorem matchBits_inj_of_mem_exactRows : ∀ r ∈ exactRows, ∀ q ∈ exactRows, r.matchBits = q.matchBits → r = q := by decide

/-- An exact row matches a word when its match bits are the word's bits under the one mask. -/
theorem exactRow_matches_iff {r : CauseRow} (hr : r ∈ exactRows) {w : Word} :
    w &&& r.mask = r.matchBits ↔ w &&& exactMask = r.matchBits := by
  rw [mask_of_mem_exactRows r hr]

/-- At most one exact row matches a word. -/
theorem exactRow_unique {r q : CauseRow} (hr : r ∈ exactRows) (hq : q ∈ exactRows) {w : Word}
    (hrw : w &&& r.mask = r.matchBits) (hqw : w &&& q.mask = q.matchBits) : r = q := by
  rw [exactRow_matches_iff hr] at hrw
  rw [exactRow_matches_iff hq] at hqw
  exact matchBits_inj_of_mem_exactRows r hr q hq (hrw.symm.trans hqw)

/-! ## The class of a word -/

/-- Pass 1: a matching row gives the class, for the row that the search finds is that row. -/
theorem selectClass_of_match {r : CauseRow} (hr : r ∈ exactRows) {w : Word} (hrw : w &&& r.mask = r.matchBits) :
    selectClass w = r.cls := by
  cases hfind : exactRows.find? (fun q => q.matches w) with
  | none => exact absurd (CauseRow.matches_iff.2 hrw) (List.find?_eq_none.1 hfind r hr)
  | some q =>
    have hqw : w &&& q.mask = q.matchBits := CauseRow.matches_iff.1 (List.find?_some hfind :)
    rw [selectClass, hfind, exactRow_unique hr (List.mem_of_find?_eq_some hfind) hrw hqw]

/-- Pass 2: with no matching row, A gives the class. -/
theorem selectClass_of_no_match {w : Word} (h : ∀ r ∈ exactRows, w &&& r.mask ≠ r.matchBits) :
    selectClass w = if asyncBit w then .asyncOther else .syncOther := by
  have hfind : exactRows.find? (fun r => r.matches w) = none :=
    List.find?_eq_none.2 fun r hr hmatch => h r hr (CauseRow.matches_iff.1 hmatch)
  rw [selectClass, hfind]

/-- Settles O3, by the two passes. -/
theorem everyCauseWordSelectsExactlyOneClass : Obligations.EveryCauseWordSelectsExactlyOneClass := by
  unfold Obligations.EveryCauseWordSelectsExactlyOneClass
  exact ⟨rfl, mask_of_mem_exactRows, fun w => ⟨fun _ hr _ hq => exactRow_unique hr hq, fun _ hr => selectClass_of_match hr,
    selectClass_of_no_match, opClass_decodeCause w⟩⟩

/-! ## The bits that take no part -/

/-- A word is its three fields (30_encoding R90). -/
theorem causeWord_fields (w : Word) : causeWord (asyncBit w) (causeUpper w) (causeNumber w) = w := by
  refine BitVec.eq_of_getElem_eq fun k hk => ?_
  rw [causeWord_getElem _ _ _ k hk, ← BitVec.getLsbD_eq_getElem hk, asyncBit, causeUpper, causeNumber,
    BitVec.getLsbD_extractLsb', BitVec.getLsbD_extractLsb']
  split_ifs with hnumber hupper
  · simp only [hnumber, decide_true, Bool.true_and, Nat.zero_add]
  · simp only [show k - 12 < 51 by omega, decide_true, Bool.true_and, show 12 + (k - 12) = k by omega]
  · rw [show k = 63 by omega]

/-- The exact mask keeps A and N. -/
theorem and_exactMask (w : Word) : w &&& exactMask = causeWord (asyncBit w) 0 (causeNumber w) := by
  calc w &&& exactMask = causeWord (asyncBit w) (causeUpper w) (causeNumber w) &&& exactMask := by rw [causeWord_fields]
    _ = causeWord (asyncBit w) 0 (causeNumber w) := Laws.TableBits.causeWord_exact _ _ _

/-- The class depends on A and N alone: the same row matches, or none does and A is the same. -/
theorem selectClass_congr {w v : Word} (ha : asyncBit w = asyncBit v) (hn : causeNumber w = causeNumber v) :
    selectClass w = selectClass v := by
  have hmasked : w &&& exactMask = v &&& exactMask := by rw [and_exactMask, and_exactMask, ha, hn]
  have hmatch {r : CauseRow} (hr : r ∈ exactRows) : w &&& r.mask = r.matchBits ↔ v &&& r.mask = r.matchBits := by
    rw [exactRow_matches_iff hr, exactRow_matches_iff hr, hmasked]
  by_cases h : ∃ r ∈ exactRows, w &&& r.mask = r.matchBits
  · obtain ⟨r, hr, hrw⟩ := h
    rw [selectClass_of_match hr hrw, selectClass_of_match hr ((hmatch hr).1 hrw)]
  · have hw : ∀ r ∈ exactRows, w &&& r.mask ≠ r.matchBits := fun r hr hrw => h ⟨r, hr, hrw⟩
    rw [selectClass_of_no_match hw, selectClass_of_no_match fun r hr => mt (hmatch hr).2 (hw r hr), ha]

/-- Settles O5: the class depends on A and N alone, and both samples match an exact row. -/
theorem ignoredCauseBitsSelectNothing : Obligations.IgnoredCauseBitsSelectNothing := by
  unfold Obligations.IgnoredCauseBitsSelectNothing
  have hecallU : ⟨.ecallU, 0x0000000000000008, exactMask⟩ ∈ exactRows := by decide
  have htimer : ⟨.timer, 0x8000000000000007, exactMask⟩ ∈ exactRows := by decide
  exact ⟨fun _ _ => selectClass_congr, selectClass_of_match hecallU (by decide), selectClass_of_match htimer (by decide)⟩

end Sys2Proof
end

section
/-! PROOFS of the family 40_cause_decode: the opcode map (30_encoding R110) gives a cause the class of `Classify`, so an undisturbed
DECODE step classifies the latched cause by the table of 40_cause_decode R122. -/

namespace Sys2Proof.Machine

/-! ## The table of R122, row by row -/

/-- The rows of `Classify` for interrupts. -/
theorem classify_async (n : BitVec 12) :
    (n = 0x003 → classify true n = .swi) ∧ (n = 0x007 → classify true n = .timer) ∧
    (n = 0x00B → classify true n = .ext) ∧
    (n ≠ 0x003 → n ≠ 0x007 → n ≠ 0x00B → classify true n = .asyncOther) := by
  refine ⟨?_, ?_, ?_, fun h3 h7 h11 => by simp_all [classify]⟩ <;> rintro rfl <;> rfl

/-- The rows of `Classify` for exceptions. -/
theorem classify_sync (n : BitVec 12) :
    (n = 0x002 → classify false n = .illegal) ∧ (n = 0x008 → classify false n = .ecallU) ∧
    (n = 0x009 → classify false n = .ecallS) ∧ (n = 0x00B → classify false n = .ecallM) ∧
    (n = 0x00C → classify false n = .ipf) ∧ (n = 0x00D → classify false n = .lpf) ∧
    (n = 0x00F → classify false n = .spf) ∧
    (n ≠ 0x002 → n ≠ 0x008 → n ≠ 0x009 → n ≠ 0x00B → n ≠ 0x00C → n ≠ 0x00D → n ≠ 0x00F →
      classify false n = .syncOther) := by
  refine ⟨?_, ?_, ?_, ?_, ?_, ?_, ?_, fun h2 h8 h9 h11 h12 h13 h15 => by simp_all [classify]⟩ <;> rintro rfl <;> rfl

/-! ## The rows of the opcode map and `Classify` -/

/-- A row's match bits have no bit outside the mask. -/
theorem matchBits_and_exactMask : ∀ r ∈ exactRows, r.matchBits &&& exactMask = r.matchBits := by decide

theorem classOfCause_matchBits : ∀ r ∈ exactRows, classOfCause r.matchBits = r.cls := by decide

theorem asyncBit_and_exactMask (w : Word) : asyncBit (w &&& exactMask) = asyncBit w := by
  rw [asyncBit, asyncBit, BitVec.getLsbD_and, show exactMask.getLsbD 63 = true by decide, Bool.and_true]

theorem causeNumber_and_exactMask (w : Word) : causeNumber (w &&& exactMask) = causeNumber w := by
  rw [causeNumber, causeNumber, BitVec.extractLsb'_and, show exactMask.extractLsb' 0 12 = BitVec.allOnes 12 by decide,
    BitVec.and_allOnes]

/-- An exact row matches a word when both have the same A and N. -/
theorem exactRow_matches_iff_fields {r : CauseRow} (hr : r ∈ exactRows) {w : Word} :
    w &&& r.mask = r.matchBits ↔ asyncBit w = asyncBit r.matchBits ∧ causeNumber w = causeNumber r.matchBits := by
  rw [exactRow_matches_iff hr]
  constructor
  · intro h
    rw [← h, asyncBit_and_exactMask, causeNumber_and_exactMask]
    exact ⟨rfl, rfl⟩
  · rintro ⟨ha, hn⟩
    rw [and_exactMask, ha, hn, ← and_exactMask, matchBits_and_exactMask r hr]

/-- `Classify` gives an OTHER class to every A and N that no exact row has. -/
theorem classify_of_no_row {a : Bool} {n : BitVec 12}
    (h : ∀ r ∈ exactRows, ¬ (a = asyncBit r.matchBits ∧ n = causeNumber r.matchBits)) :
    classify a n = if a then .asyncOther else .syncOther := by
  simp only [exactRows, List.forall_mem_cons] at h
  obtain ⟨hswi, htimer, hext, hillegal, hecallU, hecallS, hecallM, hipf, hlpf, hspf, -⟩ := h
  cases a
  case true =>
    obtain ⟨-, -, -, hother⟩ := classify_async n
    exact hother (hswi ⟨rfl, ·⟩) (htimer ⟨rfl, ·⟩) (hext ⟨rfl, ·⟩)
  case false =>
    obtain ⟨-, -, -, -, -, -, -, hother⟩ := classify_sync n
    exact hother (hillegal ⟨rfl, ·⟩) (hecallU ⟨rfl, ·⟩) (hecallS ⟨rfl, ·⟩) (hecallM ⟨rfl, ·⟩) (hipf ⟨rfl, ·⟩)
      (hlpf ⟨rfl, ·⟩) (hspf ⟨rfl, ·⟩)

/-- The opcode map gives every cause word the class of `Classify`: by a row that matches it, or by none. -/
theorem selectClass_eq_classOfCause (w : Word) : selectClass w = classOfCause w := by
  by_cases h : ∃ r ∈ exactRows, w &&& r.mask = r.matchBits
  · obtain ⟨r, hr, hmatch⟩ := h
    obtain ⟨ha, hn⟩ := (exactRow_matches_iff_fields hr).1 hmatch
    rw [selectClass_of_match hr hmatch, ← classOfCause_matchBits r hr, classOfCause, classOfCause, ha, hn]
  · have hno : ∀ r ∈ exactRows, w &&& r.mask ≠ r.matchBits := fun r hr hmatch => h ⟨r, hr, hmatch⟩
    rw [selectClass_of_no_match hno, classOfCause,
      classify_of_no_row fun r hr => mt (exactRow_matches_iff_fields hr).2 (hno r hr)]

/-! ## The DECODE step -/

/-- The cause number is the cause word under the mask 0xFFF (30_encoding R90). -/
theorem causeNumber_setWidth (w : Word) : (causeNumber w).setWidth 64 = w &&& 0xFFF := by
  refine BitVec.eq_of_toNat_eq ?_
  rw [BitVec.toNat_and, show (0xFFF : Word).toNat = 2 ^ 12 - 1 by decide, Nat.and_two_pow_sub_one_eq_mod,
    causeNumber, BitVec.toNat_setWidth, BitVec.extractLsb'_toNat, Nat.shiftRight_zero]
  omega

/-- DECODE of a class of either tier writes the decoded fields and the class; the tier gives the text and the next state. -/
theorem atDecode_eq (c : TrapClass) (s : State) :
    ∃ text next, atDecode c s = { decodeFields s with class_q := c, diag_q := text, fsm_state := next } := by
  rw [atDecode]
  cases tier c
  case recoverable => exact ⟨_, _, rfl⟩
  case fatal => exact ⟨_, _, rfl⟩

/-- An undisturbed DECODE step is DECODE of the latched cause's class. -/
theorem step_decode {s : State} (hwf : instanceWf s.cfg = true) (hf : s.fsm_state = .decode) (hfsm : fsmSteps s = true)
    (ht : (signals s).trap = none) :
    step s = .next (endStep (atDecode (classOfCause s.cause_q) (beginStep s))) := by
  rw [step_wf hwf, takeInput_fsm (s := beginStep s) hfsm, fsmTransition_eq, dispatchStep_decode (s := beginStep s) _ _ hf,
    unlessNested_quiet (by simpa using ht), mapNext, selectClass_eq_classOfCause, beginStep_cause_q]

/-- Settles O17: the step is DECODE of the class that `Classify` gives, and the clauses are the rows of `Classify`. -/
theorem decodeStepClassifiesTheCause : Obligations.DecodeStepClassifiesTheCause := by
  unfold Obligations.DecodeStepClassifiesTheCause
  intro s hwf hf hfsm ht
  obtain ⟨text, next, hdecode⟩ := atDecode_eq (classOfCause s.cause_q) (beginStep s)
  refine ⟨_, step_decode hwf hf hfsm ht, ?_⟩
  rw [hdecode]
  have hclass {a : Bool} (ha : s.cause_q.getLsbD 63 = a) : classOfCause s.cause_q = classify a (causeNumber s.cause_q) :=
    congrArg (classify · _) ha
  refine ⟨rfl, causeNumber_setWidth s.cause_q, rfl, fun hasync => ?_, fun hsync => ?_, rfl, rfl, rfl⟩
  · rw [hclass hasync]
    exact classify_async (causeNumber s.cause_q)
  · rw [hclass hsync]
    exact classify_sync (causeNumber s.cause_q)

end Sys2Proof.Machine
end

section
/-! PROOFS of the family 41_async_dispatch: the resume address that the invariant gives a trap in RESUME (30_encoding R105) goes by
the class of the latched cause. -/

namespace Sys2Proof.Machine

/-- The class of a recoverable interrupt does not skip (41_async_dispatch R146). -/
theorem skips_classify_async : ∀ n ∈ [3#12, 7#12, 11#12], skips (classify true n) = false := by decide

/-- The class of a recoverable exception skips (42_sync_dispatch R169). -/
theorem skips_classify_sync : ∀ n ∈ [8#12, 9#12, 12#12, 13#12, 15#12], skips (classify false n) = true := by decide

theorem resume_valid_o_iff {s : State} : resume_valid_o s = true ↔ s.fsm_state = .resume := by
  simp [resume_valid_o]

theorem resumeOf_resume (c : TrapClass) (epc : Word) :
    resumeOf .resume c epc = if skips c then epc + skipBytes else epc := by
  simp [resumeOf]

/-- Under the invariant the class of the latched cause decides which resume address is presented. -/
theorem Inv.resume_pc_o_eq {s : State} (hinv : Inv s) (hvalid : resume_valid_o s = true) :
    resume_pc_o s = if skips (classOfCause s.cause_q) then s.epc_q + skipBytes else s.epc_q := by
  have hf : s.fsm_state = .resume := resume_valid_o_iff.1 hvalid
  have hdecoded : afterDecode s.fsm_state = true := by rw [hf]; rfl
  obtain ⟨-, -, hclass⟩ := hinv.decoded hdecoded
  rw [resume_pc_o, if_pos hf, hinv.resume hdecoded, hf, hclass, resumeOf_resume]

/-- The class of a cause word with its bit 63 known (40_cause_decode R122). -/
theorem classOfCause_of_bit63 {w : Word} {a : Bool} (ha : w.getLsbD 63 = a) :
    classOfCause w = classify a (causeNumber w) :=
  congrArg (classify · _) ha

/-- Settles O51: the class of a recoverable interrupt does not skip, that of a recoverable exception does. -/
theorem presentedResumeAddress : Obligations.PresentedResumeAddress := by
  unfold Obligations.PresentedResumeAddress
  intro s hinv hvalid
  rw [hinv.resume_pc_o_eq hvalid]
  refine ⟨fun hasync hn => ?_, fun hsync hn => ?_⟩
  · rw [classOfCause_of_bit63 hasync, skips_classify_async (causeNumber s.cause_q) hn]
    rfl
  · rw [classOfCause_of_bit63 hsync, skips_classify_sync (causeNumber s.cause_q) hn]
    rfl

end Sys2Proof.Machine
end

section
/-! PROOFS of the family 42_sync_dispatch: under the invariant a trap in RESUME has a cause of the recoverable tier, so no trap of
a fatal cause asserts `resume_valid_o` (42_sync_dispatch R170, and R148 for the interrupts). -/

namespace Sys2Proof.Machine

/-- The fatal interrupts are those of no row of 40_cause_decode R122. -/
theorem tier_classify_async {n : BitVec 12} (hn : n ∉ [3#12, 7#12, 11#12]) : tier (classify true n) = .fatal := by
  simp only [List.mem_cons, List.not_mem_nil, or_false, not_or] at hn
  obtain ⟨h3, h7, h11⟩ := hn
  obtain ⟨-, -, -, hother⟩ := classify_async n
  rw [hother h3 h7 h11]
  rfl

/-- The fatal exceptions are ILLEGAL, ECALL_M and those of no row of 40_cause_decode R122. -/
theorem tier_classify_sync {n : BitVec 12} (hn : n ∉ [8#12, 9#12, 12#12, 13#12, 15#12]) :
    tier (classify false n) = .fatal := by
  simp only [List.mem_cons, List.not_mem_nil, or_false, not_or] at hn
  obtain ⟨h8, h9, h12, h13, h15⟩ := hn
  obtain ⟨hillegal, -, -, hecallM, -, -, -, hother⟩ := classify_sync n
  by_cases h2 : n = 0x002
  · rw [hillegal h2]
    rfl
  · by_cases h11 : n = 0x00B
    · rw [hecallM h11]
      rfl
    · rw [hother h2 h8 h9 h11 h12 h13 h15]
      rfl

/-- Under the invariant a trap that presents its resume address has a recoverable cause. -/
theorem Inv.tier_recoverable {s : State} (hinv : Inv s) (hvalid : resume_valid_o s = true) :
    tier (classOfCause s.cause_q) = .recoverable := by
  have hf : s.fsm_state = .resume := resume_valid_o_iff.1 hvalid
  obtain ⟨-, -, hclass⟩ := hinv.decoded (by rw [hf]; rfl)
  have hfits : classFits .resume (classOfCause s.cause_q) = true := by
    rw [← hf, ← hclass]
    exact hinv.cls
  exact eq_of_beq hfits

/-- Under the invariant a fatal cause keeps `resume_valid_o` at 0. -/
theorem Inv.resume_valid_o_of_fatal {s : State} (hinv : Inv s) (hfatal : tier (classOfCause s.cause_q) = .fatal) :
    resume_valid_o s = false := by
  refine Bool.eq_false_iff.2 fun hvalid => ?_
  have hrec := hinv.tier_recoverable hvalid
  rw [hfatal] at hrec
  contradiction

/-- Settles O52: each cause the two clauses leave is of the fatal tier. -/
theorem fatalCausesNeverResume : Obligations.FatalCausesNeverResume := by
  unfold Obligations.FatalCausesNeverResume
  intro s hinv
  refine ⟨fun hasync hn => hinv.resume_valid_o_of_fatal ?_, fun hsync hn => hinv.resume_valid_o_of_fatal ?_⟩
  · rw [classOfCause_of_bit63 hasync]
    exact tier_classify_async hn
  · rw [classOfCause_of_bit63 hsync]
    exact tier_classify_sync hn

end Sys2Proof.Machine
end

section
/-! PROOFS of the family 43_frame_accessor: the five checks in order (43_frame_accessor R196) and the answer of the five accessor
operations (R193). -/

namespace Sys2Proof.Machine

/-! ## The checks, as arithmetic -/

/-- The decoder takes the offsets of the two banks and of the three single fields (30_encoding R107). -/
theorem offsetValid_iff_fields (off : BitVec 10) :
    offsetValid off = true ↔ (off.extractLsb' 0 3).toNat = 0 ∧
      ((off.extractLsb' 8 2).toNat = 0 ∨ (off.extractLsb' 8 2).toNat = 1 ∨
        off.toNat = 512 ∨ off.toNat = 520 ∨ off.toNat = 528) := by
  simp only [offsetValid, decodeOffset, bne_iff_ne, beq_iff_eq, ne_eq, ← BitVec.toNat_inj, BitVec.reduceToNat]
  split_ifs <;> simp [Except.toOption, -BitVec.extractLsb'_toNat, *]

/-- The fields of the frame are the multiples of 8 below 536 (30_encoding R106, R107). -/
theorem offsetValid_iff (off : BitVec 10) : offsetValid off = true ↔ off.toNat % 8 = 0 ∧ off.toNat < 536 := by
  have fields := offset_fields off
  have hindex := (off.extractLsb' 3 5).isLt
  have hlow := (off.extractLsb' 0 3).isLt
  rw [offsetValid_iff_fields]
  omega

/-- The low three bits of a word are 0 exactly at the multiples of 8. -/
theorem extractLsb'_three_eq_zero_iff (w : Word) : w.extractLsb' 0 3 = 0 ↔ w.toNat % 8 = 0 := by
  simp [← BitVec.toNat_inj]

/-- Checks 1 to 4 of FrameCheck (43_frame_accessor R196), as arithmetic on the offset and the frame pointer. -/
theorem frameCheck_eq (s : State) (off : BitVec 10) :
    frameCheck s off =
      if ¬ frameLive s.fsm_state = true then some .noFrame
      else if ¬ (off.toNat % 8 = 0 ∧ off.toNat < 536) then some .badOffset
      else if s.frame_q.toNat % 8 ≠ 0 then some .misaligned
      else if s.frame_q.toNat + 536 > 2 ^ 64 then some .wraps
      else none := by
  simp only [frameCheck, Bool.not_eq_true', Bool.eq_false_iff, offsetValid_iff, bne_iff_ne, ne_eq,
    extractLsb'_three_eq_zero_iff, frameSize]
  rfl

/-- A valid offset of a live, aligned frame that does not wrap passes checks 1 to 4. -/
theorem frameCheck_passes {s : State} {off : BitVec 10} (hlive : frameLive s.fsm_state = true)
    (hmul : off.toNat % 8 = 0) (hlt : off.toNat < 536) (hal : s.frame_q.toNat % 8 = 0)
    (hfits : s.frame_q.toNat + 536 ≤ 2 ^ 64) : frameCheck s off = none := by
  rw [frameCheck_eq, if_neg (not_not_intro hlive), if_neg (not_not_intro ⟨hmul, hlt⟩), if_neg (not_not_intro hal),
    if_neg (Nat.not_lt.2 hfits)]

/-! ## What the accessor answers -/

theorem accessorRead_fails {s : State} {off : BitVec 10} {r : FrameFault} (hcheck : frameCheck s off = some r) :
    accessorRead off s = .next { s with acc_answer := some (.error r) } := by
  simp [accessorRead, hcheck]

theorem accessorRead_busError {s : State} {off : BitVec 10} (hcheck : frameCheck s off = none)
    (hbus : accBusError s = true) :
    accessorRead off s = .next { s with acc_answer := some (.error .busError),
                                        bus := s.bus ++ [.readError .frame (fieldAddr s.frame_q off) 8] } := by
  simp [accessorRead, hcheck, hbus]

theorem accessorRead_data {s : State} {off : BitVec 10} {v : Word} (hcheck : frameCheck s off = none)
    (hbus : accBusError s = false) (hread : memRead s.mem (fieldAddr s.frame_q off) 8 = some v) :
    accessorRead off s = .next { s with acc_answer := some (.data v),
                                        bus := s.bus ++ [.read .frame (fieldAddr s.frame_q off) 8 v] } := by
  simp [accessorRead, hcheck, hbus, hread]

/-- The step of an accessor request is the read at its offset. -/
theorem step_read {s : State} {off : BitVec 10} {e : Bool} {rest : List Input} (hwf : instanceWf s.cfg = true)
    (hi : s.inputs = .read off e :: rest) : step s = mapNext endStep (accessorRead off (beginStep s)) := by
  have htake : takeInput (beginStep s) = accessorRequest off (beginStep s) := by
    simp [takeInput, hi]
  rw [step_wf hwf, htake, accessorRequest_eq]

/-- The step of an accessor request that fails check 1, 2, 3 or 4. -/
theorem step_read_fails {s : State} {off : BitVec 10} {e : Bool} {rest : List Input} {r : FrameFault}
    (hwf : instanceWf s.cfg = true) (hi : s.inputs = .read off e :: rest) (hcheck : frameCheck s off = some r) :
    step s = .next (endStep { s with acc_answer := some (.error r) }) := by
  rw [step_read hwf hi, accessorRead_fails (s := beginStep s) hcheck]
  rfl

/-- The step of an accessor request whose read the bus answers with `error` (check 5). -/
theorem step_read_busError {s : State} {off : BitVec 10} {rest : List Input} (hwf : instanceWf s.cfg = true)
    (hi : s.inputs = .read off true :: rest) (hcheck : frameCheck s off = none) :
    step s = .next (endStep { s with acc_answer := some (.error .busError),
                                     bus := s.bus ++ [.readError .frame (fieldAddr s.frame_q off) 8] }) := by
  have hbus : accBusError (beginStep s) = true := by simp [accBusError, hi]
  rw [step_read hwf hi, accessorRead_busError (s := beginStep s) hcheck hbus]
  rfl

/-- Settles O31: each clause is one branch of FrameCheck, the last one its passing with a bus error. -/
theorem frameChecksFailInOrder : Obligations.FrameChecksFailInOrder := by
  unfold Obligations.FrameChecksFailInOrder
  intro s off e rest hwf hi
  refine ⟨fun hdead => ?_, fun hlive hbad => ?_, fun hlive hmul hlt hmis => ?_, fun hlive hmul hlt hal hwrap => ?_,
    fun hlive hmul hlt hal hfits he => ?_, fun t r hanswer => ?_⟩
  · exact step_read_fails hwf hi (by rw [frameCheck_eq, if_pos (by simp [hdead])])
  · exact step_read_fails hwf hi (by rw [frameCheck_eq, if_neg (not_not_intro hlive), if_pos hbad])
  · exact step_read_fails hwf hi (by
      rw [frameCheck_eq, if_neg (not_not_intro hlive), if_neg (not_not_intro ⟨hmul, hlt⟩), if_pos hmis])
  · exact step_read_fails hwf hi (by
      rw [frameCheck_eq, if_neg (not_not_intro hlive), if_neg (not_not_intro ⟨hmul, hlt⟩),
        if_neg (not_not_intro hal), if_pos hwrap])
  · subst he
    exact step_read_busError hwf hi (frameCheck_passes hlive hmul hlt hal hfits)
  · simp [acc_err_o, acc_done_o, hanswer]

/-! ## The offsets of the accessor operations -/

/-- `regs[index]` and `fregs[index]` lie at multiples of 8 from 0 and from 256 (30_encoding R106). -/
theorem elementOffset_eq_ofNat (bank : BitVec 2) (index : BitVec 5) :
    elementOffset bank index = BitVec.ofNat 10 (256 * bank.toNat + 8 * index.toNat) := by
  refine BitVec.eq_of_toNat_eq ?_
  rw [elementOffset_toNat, BitVec.toNat_ofNat]
  omega

/-- The elements of the banks 0 and 1 lie at fields of the frame. -/
theorem elementOffset_aligned_lt {bank : BitVec 2} (hbank : bank.toNat < 2) (index : BitVec 5) :
    (elementOffset bank index).toNat % 8 = 0 ∧ (elementOffset bank index).toNat < 536 := by
  have hindex := index.isLt
  rw [elementOffset_toNat]
  omega

/-- The offset of an accessor operation names a field. -/
theorem offset_aligned_lt {i : Instr} {off : BitVec 10} (hi : i.offset? = some off) :
    off.toNat % 8 = 0 ∧ off.toNat < 536 := by
  cases i <;> cases hi
  case frameRegs index => exact elementOffset_aligned_lt (by decide) index
  case frameFregs index => exact elementOffset_aligned_lt (by decide) index
  all_goals decide

/-- Settles O30: the checks that remain for an accessor operation's offset are those on the frame. -/
theorem accessorAnswersTheStoredField : Obligations.AccessorAnswersTheStoredField := by
  unfold Obligations.AccessorAnswersTheStoredField
  refine ⟨fun x => ?_, fun x => ?_, rfl, rfl, rfl, fun i off s r hi hcheck => ?_,
    fun i off s v hi hlive hal hfits hbus hread => ?_⟩
  · simp [Instr.offset?, elementOffset_eq_ofNat]
  · simp [Instr.offset?, elementOffset_eq_ofNat]
  · rw [exec_accessor hi, accessorRead_fails hcheck]
  · obtain ⟨hmul, hlt⟩ := offset_aligned_lt hi
    have hcheck : frameCheck s off = none := frameCheck_passes hlive hmul hlt hal hfits
    exact ⟨_, (exec_accessor hi s).trans (accessorRead_data hcheck hbus hread), rfl, rfl, rfl, rfl⟩

end Sys2Proof.Machine
end

section
/-! PROOFS of the family 44_diag_and_halt: the LOG end goes by `class_q` (44_diag_and_halt R212), and only a reset leaves HALTED
(R223). -/

namespace Sys2Proof.Machine

/-- A step that acts on the FSM, in a well-formed instance, is the transition of the latched cause and class. -/
theorem step_fsm {s : State} (hwf : instanceWf s.cfg = true) (hfsm : fsmSteps s = true) :
    step s = mapNext endStep
      (dispatchStep (atDecode (selectClass s.cause_q)) (atLogEnd s.class_q) (beginStep s)) := by
  rw [step_wf hwf, takeInput_fsm (s := beginStep s) hfsm, fsmTransition_eq, beginStep_cause_q, beginStep_class_q]

/-! ## The end of LOG -/

/-- The skipping classes are the five of 30_encoding R105. -/
theorem skips_iff_mem (c : TrapClass) : skips c = true ↔ c ∈ [TrapClass.ecallU, .ecallS, .ipf, .lpf, .spf] := by
  cases c <;> decide

theorem atLogEnd_skip {c : TrapClass} (h : skips c = true) (s : State) : atLogEnd c s = goto .resume (skip s) := by
  rw [atLogEnd, if_pos h]

/-- A class that does not skip only moves the FSM at the end of LOG. -/
theorem atLogEnd_not_skip {c : TrapClass} (h : skips c = false) (s : State) :
    atLogEnd c s = goto (if c = .timer then .timerRead else .resume) s := by
  rw [atLogEnd, if_neg (by simp [h])]
  split_ifs <;> rfl

@[simp] theorem atLogEnd_resume_q (c : TrapClass) (s : State) :
    (atLogEnd c s).resume_q = if skips c then s.resume_q + skipBytes else s.resume_q := by
  cases h : skips c
  · simp [atLogEnd_not_skip h]
  · simp [atLogEnd_skip h]

@[simp] theorem atLogEnd_fsm_state (c : TrapClass) (s : State) :
    (atLogEnd c s).fsm_state = if c = .timer then .timerRead else .resume := by
  cases h : skips c
  · rw [atLogEnd_not_skip h, goto_fsm_state]
  · have hc : c ≠ .timer := by rintro rfl; contradiction
    rw [atLogEnd_skip h, goto_fsm_state, if_neg hc]

@[simp] theorem atLogEnd_bus (c : TrapClass) (s : State) : (atLogEnd c s).bus = s.bus := by
  cases h : skips c
  · rw [atLogEnd_not_skip h, goto_bus]
  · rw [atLogEnd_skip h, goto_bus, skip_bus]

@[simp] theorem atLogEnd_class_q (c : TrapClass) (s : State) : (atLogEnd c s).class_q = s.class_q := by
  cases h : skips c
  · rw [atLogEnd_not_skip h, goto_class_q]
  · rw [atLogEnd_skip h, goto_class_q, skip_class_q]

/-- An undisturbed LOG step with `diag_q` empty is the LOG end of the class register. -/
theorem step_logEnd {s : State} (hwf : instanceWf s.cfg = true) (hf : s.fsm_state = .log) (hd : s.diag_q = [])
    (hfsm : fsmSteps s = true) (ht : (signals s).trap = none) :
    step s = .next (endStep (atLogEnd s.class_q (beginStep s))) := by
  rw [step_fsm hwf hfsm, dispatchStep_log (s := beginStep s) _ _ hf, unlessNested_quiet (by simpa using ht),
    emitStep_nil (s := beginStep s) hd, mapNext]

/-- Under the invariant LOG holds the interrupted address as its resume address (30_encoding R105). -/
theorem Inv.resume_q_of_log {s : State} (hinv : Inv s) (hf : s.fsm_state = .log) : s.resume_q = s.epc_q := by
  rw [hinv.resume (by rw [hf]; rfl), hf, resumeOf, if_neg (by simp)]

/-- Settles O20: the step is the LOG end of `class_q`, which adds 4 exactly for the classes that skip. -/
theorem logEndStepGoesByTheClassRegister : Obligations.LogEndStepGoesByTheClassRegister := by
  unfold Obligations.LogEndStepGoesByTheClassRegister
  intro s hwf hf hd hfsm ht
  refine ⟨_, step_logEnd hwf hf hd hfsm ht, ?_⟩
  rw [← skips_iff_mem, endStep_resume_q, atLogEnd_resume_q, beginStep_resume_q, endStep_fsm_state, atLogEnd_fsm_state]
  refine ⟨fun h => if_pos h, fun h => if_neg h, fun h => if_pos h, fun h => if_neg h, atLogEnd_bus _ _,
    atLogEnd_class_q _ _, fun hinv hc => ?_⟩
  have hkeep : skips s.class_q = false := by obtain hc | hc := hc <;> rw [hc] <;> rfl
  rw [hkeep, if_neg Bool.false_ne_true, hinv.resume_q_of_log hf]

/-! ## HALTED -/

/-- In HALTED and UNDEF the FSM's transition keeps everything (44_diag_and_halt R223, 60_exceptions R262). -/
theorem dispatchStep_absorbing (d l : State → State) {s : State} (h : s.fsm_state = .halted ∨ s.fsm_state = .undef) :
    dispatchStep d l s = .next s := by
  obtain h | h := h
  · exact dispatchStep_halted d l h
  · exact dispatchStep_undef d l h

/-- An FSM step in HALTED or UNDEF only uses up its input. -/
theorem step_absorbing {s : State} (hwf : instanceWf s.cfg = true) (hfsm : fsmSteps s = true)
    (h : s.fsm_state = .halted ∨ s.fsm_state = .undef) : step s = .next (endStep (beginStep s)) := by
  rw [step_fsm hwf hfsm, dispatchStep_absorbing (s := beginStep s) _ _ h, mapNext]

/-- Outside the FSM's steps, reset alone writes a block register. -/
theorem Change.block_eq_of_not_fsm {s t : State} (h : Change s t) (hfsm : fsmSteps s ≠ true)
    (hreset : s.inputs.head? ≠ some .reset) : t.block = s.block := by
  cases h
  case reset rest hi => exact absurd (by simp [hi]) hreset
  case accCheck | accError | accData | time | compare | receive | pend => rfl
  case storeUart | storeCompare | storeHalt | store => rfl
  all_goals exact absurd ‹fsmSteps s = true› hfsm

/-- No step but a reset changes a block register in HALTED or UNDEF. -/
theorem step_block_of_absorbing {s t : State} (h : step s = .next t) (hf : s.fsm_state = .halted ∨ s.fsm_state = .undef)
    (hreset : s.inputs.head? ≠ some .reset) : t.block = s.block := by
  obtain ⟨hwf, u, hchange, rfl⟩ := step_change h
  by_cases hfsm : fsmSteps s = true
  · have hsame : endStep (beginStep s) = endStep u := by simpa [step_absorbing hwf hfsm hf] using h
    rw [← hsame, block_endStep, block_beginStep]
  · calc (endStep u).block = u.block := block_endStep u
      _ = (beginStep s).block := hchange.block_eq_of_not_fsm hfsm hreset
      _ = s.block := block_beginStep s

/-- A RESET input is a reset of the block, whatever state it is in (70_reset R280). -/
theorem takeInput_reset {s : State} (h : s.inputs.head? = some .reset) : takeInput s = .next (resetBlock s) := by
  obtain ⟨rest, hi⟩ := List.head?_eq_some_iff.1 h
  rw [takeInput, hi]

/-- A reset leaves the block in IDLE. -/
theorem step_reset_fsm_state {s t : State} (h : step s = .next t) (hreset : s.inputs.head? = some .reset) :
    t.fsm_state = .idle := by
  obtain ⟨-, u, htake, rfl⟩ := step_cases h
  rw [takeInput_reset (s := beginStep s) hreset] at htake
  cases htake
  rfl

/-- Settles O28: HALTED's transition keeps everything, and of the other inputs reset alone writes a block register. -/
theorem haltedIsAbsorbing : Obligations.HaltedIsAbsorbing := by
  unfold Obligations.HaltedIsAbsorbing
  intro s hf
  refine ⟨?_, ?_, fun i c hi => ?_, fun hwf hfsm => ?_, fun t hstep hreset => ?_, fun t => step_reset_fsm_state⟩
  · simp [trap_ready_o, hf]
  · simp [resume_valid_o, hf]
  · rw [exec_cause hi, dispatchStep_halted _ _ hf]
  · exact step_absorbing hwf hfsm (.inl hf)
  · exact step_block_of_absorbing hstep (.inl hf) hreset

end Sys2Proof.Machine
end

section
/-! PROOFS of the family 70_reset_and_hazards: a reset takes the values of 10_state R50 and issues no bus transaction
(70_reset R280, R281). -/

namespace Sys2Proof.Machine

/-! ## resetBlock: the values 10_state R50 fixes -/

@[simp] theorem resetBlock_fsm_state (s : State) : (resetBlock s).fsm_state = .idle := rfl
@[simp] theorem resetBlock_diag_q (s : State) : (resetBlock s).diag_q = [] := rfl
@[simp] theorem resetBlock_halted_q (s : State) : (resetBlock s).halted_q = false := rfl
@[simp] theorem resetBlock_undef_q (s : State) : (resetBlock s).undef_q = false := rfl

/-! ## resetBlock: bus, devices, memory, parameters and what is pending outside stay -/

@[simp] theorem resetBlock_bus (s : State) : (resetBlock s).bus = s.bus := rfl
@[simp] theorem resetBlock_mem (s : State) : (resetBlock s).mem = s.mem := rfl
@[simp] theorem resetBlock_mtime (s : State) : (resetBlock s).mtime = s.mtime := rfl
@[simp] theorem resetBlock_mtimecmp (s : State) : (resetBlock s).mtimecmp = s.mtimecmp := rfl
@[simp] theorem resetBlock_uart_status (s : State) : (resetBlock s).uart_status = s.uart_status := rfl
@[simp] theorem resetBlock_uart_data (s : State) : (resetBlock s).uart_data = s.uart_data := rfl
@[simp] theorem resetBlock_uart_tx (s : State) : (resetBlock s).uart_tx = s.uart_tx := rfl
@[simp] theorem resetBlock_halt_seen (s : State) : (resetBlock s).halt_seen = s.halt_seen := rfl
@[simp] theorem resetBlock_uncleared (s : State) : (resetBlock s).uncleared = s.uncleared := rfl
@[simp] theorem resetBlock_cfg (s : State) : (resetBlock s).cfg = s.cfg := rfl

/-- In a well-formed instance a RESET input is one step, a reset of the block, in whatever FSM state. -/
theorem step_reset {s : State} (hwf : instanceWf s.cfg = true) (hreset : s.inputs.head? = some .reset) :
    step s = .next (endStep (resetBlock (beginStep s))) := by
  rw [step_wf hwf, takeInput_reset (s := beginStep s) hreset, mapNext]

/-- Settles O45: the step is `resetBlock`, whose fields are the values of R50 and, outside the block, those before. -/
theorem resetEventIssuesNothing : Obligations.ResetEventIssuesNothing := by
  unfold Obligations.ResetEventIssuesNothing
  intro s rest hwf hi
  have hstep : step s = .next (endStep (resetBlock (beginStep s))) := step_reset hwf (by rw [hi, List.head?_cons])
  exact ⟨_, hstep, by simp⟩

end Sys2Proof.Machine
end

section
/-! PROOFS over 30_encoding: the encoder and the decoder are inverse to each other (R90, R106, R107, R110), by way of the bytes of a
word (log 19) and the fields of cause words and offsets. -/

namespace Sys2Proof

open Machine

/-! ## The bytes of a word -/

@[simp] theorem bytesOfWord_length (w : Word) (n : Nat) : (bytesOfWord w n).length = n := by
  simp [bytesOfWord]

theorem bytesOfWord_succ (w : Word) (n : Nat) :
    bytesOfWord w (n + 1) = byteOfWord w 0 :: bytesOfWord (w >>> 8) n := by
  simp [bytesOfWord, List.range_succ_eq_map, byteOfWord_ushiftRight]

/-- Bytes read back are the low bytes of the word they were taken from. -/
theorem wordOfBytes_bytesOfWord (n : Nat) : ∀ w : Word, wordOfBytes (bytesOfWord w n) = lowBytes n w := by
  induction n with
  | zero => intro w; exact BitVec.eq_of_toNat_eq (by simp [bytesOfWord, wordOfBytes, lowBytes, Nat.mod_one])
  | succ n ih => intro w; rw [bytesOfWord_succ, lowBytes_succ, ← ih]; rfl

/-- Eight bytes are a cause word (30_encoding R115). -/
theorem decode_causeBytes (w : Word) : decode (bytesOfWord w 8) = .ok (decodeCause w) := by
  rw [decode, if_pos (bytesOfWord_length w 8), wordOfBytes_bytesOfWord 8]
  exact congrArg (fun v => Except.ok (decodeCause v)) (lowBytes_word w)

/-- An offset fits in two bytes. -/
theorem lowBytes_offset (off : BitVec 10) : lowBytes 2 (off.setWidth 64) = off.setWidth 64 := by
  refine BitVec.eq_of_toNat_eq ?_
  have hoff := off.isLt
  simp only [lowBytes, BitVec.toNat_setWidth]
  omega

/-- Two bytes that hold an offset are that offset (30_encoding R115). -/
theorem decode_offsetBytes (off : BitVec 10) : decode (bytesOfWord (off.setWidth 64) 2) = decodeOffset off := by
  have hoff := off.isLt
  have hlt : (off.setWidth 64 : Word) < 1024 := by
    rw [BitVec.lt_def, BitVec.toNat_setWidth, show (1024 : Word).toNat = 1024 by decide]
    omega
  have hlow : (off.setWidth 64 : Word).extractLsb' 0 10 = off := by
    refine BitVec.eq_of_toNat_eq ?_
    rw [BitVec.extractLsb'_toNat, Nat.shiftRight_zero, BitVec.toNat_setWidth]
    omega
  rw [decode, bytesOfWord_length, if_neg (by decide), if_pos rfl, wordOfBytes_bytesOfWord, lowBytes_offset, if_pos hlt, hlow]

/-! ## The fields of a cause word -/

@[simp] theorem asyncBit_causeWord (a : Bool) (u : BitVec 51) (n : BitVec 12) : asyncBit (causeWord a u n) = a := by
  rw [asyncBit, BitVec.getLsbD_eq_getElem (by decide), causeWord_getElem]
  rfl

@[simp] theorem causeUpper_causeWord (a : Bool) (u : BitVec 51) (n : BitVec 12) : causeUpper (causeWord a u n) = u := by
  refine BitVec.eq_of_getLsbD_eq fun k hk => ?_
  rw [causeUpper, BitVec.getLsbD_extractLsb', BitVec.getLsbD_eq_getElem (by omega), causeWord_getElem, if_neg (by omega),
    if_pos (by omega), Nat.add_sub_cancel_left]
  simp [hk]

@[simp] theorem causeNumber_causeWord (a : Bool) (u : BitVec 51) (n : BitVec 12) : causeNumber (causeWord a u n) = n := by
  refine BitVec.eq_of_getLsbD_eq fun k hk => ?_
  rw [causeNumber, BitVec.getLsbD_extractLsb', BitVec.getLsbD_eq_getElem (by omega), causeWord_getElem, if_pos (by omega),
    Nat.zero_add]
  simp [hk]

/-- A word of given fields decodes by `Classify` of A and N. -/
theorem decodeCause_causeWord (a : Bool) (u : BitVec 51) (n : BitVec 12) :
    decodeCause (causeWord a u n) = Instr.ofClass (classify a n) (causeWord a u n) := by
  rw [decodeCause, selectClass_eq_classOfCause, classOfCause, asyncBit_causeWord, causeNumber_causeWord]

/-- The word of a well-formed cause operation selects it. -/
theorem decodeCause_of_cause? {i : Instr} {w : Word} (hwf : i.wf = true) (hi : i.cause? = some w) : decodeCause w = i := by
  cases i <;> cases hi <;> rw [decodeCause_causeWord]
  case asyncOther u n =>
    obtain ⟨-, -, -, hother⟩ := classify_async n
    simp [Instr.wf, asyncNumbers] at hwf
    obtain ⟨h3, h7, h11⟩ := hwf
    rw [hother h3 h7 h11, Instr.ofClass, causeUpper_causeWord, causeNumber_causeWord]
  case syncOther u n =>
    obtain ⟨-, -, -, -, -, -, -, hother⟩ := classify_sync n
    simp [Instr.wf, syncNumbers] at hwf
    obtain ⟨h2, h8, h9, h11, h12, h13, h15⟩ := hwf
    rw [hother h2 h8 h9 h11 h12 h13 h15, Instr.ofClass, causeUpper_causeWord, causeNumber_causeWord]
  all_goals simp [classify, Instr.ofClass]

/-! ## The fields of an offset -/

theorem elementOffset_bank (bank : BitVec 2) (index : BitVec 5) : (elementOffset bank index).extractLsb' 8 2 = bank := by
  have hbank := bank.isLt
  have hindex := index.isLt
  refine BitVec.eq_of_toNat_eq ?_
  rw [BitVec.extractLsb'_toNat, elementOffset_toNat, Nat.shiftRight_eq_div_pow]
  omega

theorem elementOffset_index (bank : BitVec 2) (index : BitVec 5) : (elementOffset bank index).extractLsb' 3 5 = index := by
  have hindex := index.isLt
  refine BitVec.eq_of_toNat_eq ?_
  rw [BitVec.extractLsb'_toNat, elementOffset_toNat, Nat.shiftRight_eq_div_pow]
  omega

theorem elementOffset_low (bank : BitVec 2) (index : BitVec 5) : (elementOffset bank index).extractLsb' 0 3 = 0 := by
  refine BitVec.eq_of_toNat_eq ?_
  rw [BitVec.extractLsb'_toNat, elementOffset_toNat, Nat.shiftRight_zero, show (0 : BitVec 3).toNat = 0 by decide]
  omega

/-- The offset of an accessor operation selects it. -/
theorem decodeOffset_of_offset? {i : Instr} {off : BitVec 10} (hi : i.offset? = some off) : decodeOffset off = .ok i := by
  cases i <;> cases hi
  case frameRegs index => simp [decodeOffset, elementOffset_low, elementOffset_bank, elementOffset_index]
  case frameFregs index => simp [decodeOffset, elementOffset_low, elementOffset_bank, elementOffset_index]
  all_goals rfl

/-! ## The two round trips -/

theorem encode_of_cause? {i : Instr} {w : Word} (hi : i.cause? = some w) : encode i = bytesOfWord w 8 := by
  simp [encode, hi]

theorem encode_of_offset? {i : Instr} {off : BitVec 10} (hi : i.offset? = some off) :
    encode i = bytesOfWord (off.setWidth 64) 2 := by
  cases i <;> cases hi <;> rfl

/-- Every operation has a cause word or an offset. -/
theorem cause?_or_offset? (i : Instr) : (∃ w, i.cause? = some w) ∨ ∃ off, i.offset? = some off := by
  cases i <;> simp [Instr.cause?, Instr.offset?]

/-- Settles O1: the eight bytes of its cause word, or the two of its offset, select the operation. -/
theorem decodeEncodeRoundTrip : Obligations.DecodeEncodeRoundTrip := by
  unfold Obligations.DecodeEncodeRoundTrip
  intro i hwf
  obtain ⟨w, hi⟩ | ⟨off, hi⟩ := cause?_or_offset? i
  · rw [encode_of_cause? hi, decode_causeBytes, decodeCause_of_cause? hwf hi]
  · rw [encode_of_offset? hi, decode_offsetBytes, decodeOffset_of_offset? hi]

/-- The operation a cause word selects has that word, by the branches of `Classify`. -/
theorem decodeCause_cause? (w : Word) : (decodeCause w).cause? = some w := by
  have hfields := causeWord_fields w
  rw [decodeCause, selectClass_eq_classOfCause, classOfCause, classify]
  split_ifs with ha <;> simp only [Instr.ofClass, Instr.cause?, Option.some.injEq] <;> simp_all

/-- The operation a cause word selects is well-formed: `Classify` gives an OTHER class to no number of an exact row. -/
theorem decodeCause_wf (w : Word) : (decodeCause w).wf = true := by
  rw [decodeCause, selectClass_eq_classOfCause, classOfCause, classify]
  split_ifs <;> simp_all [Instr.ofClass, Instr.wf, asyncNumbers, syncNumbers]

theorem wf_of_offset? {i : Instr} {off : BitVec 10} (hi : i.offset? = some off) : i.wf = true := by
  cases i <;> cases hi <;> rfl

/-- Settles O2: a selected operation has the word or the offset that selected it. -/
theorem encodeDecodeRoundTrip : Obligations.EncodeDecodeRoundTrip := by
  unfold Obligations.EncodeDecodeRoundTrip
  refine ⟨fun w => ⟨decodeCause_wf w, encode_of_cause? (decodeCause_cause? w)⟩, fun off i h => ?_⟩
  have hi : i.offset? = some off := offset_of_decodeOffset h
  exact ⟨wf_of_offset? hi, encode_of_offset? hi⟩

/-- Settles O4: `classOfCause` is `Classify` of the two fields. -/
theorem opcodeMapAgreesWithClassify : Obligations.OpcodeMapAgreesWithClassify := by
  unfold Obligations.OpcodeMapAgreesWithClassify
  exact selectClass_eq_classOfCause

/-! ## Rows of the opcode table -/

theorem decodeTableWord_cause (w : Nat) : decodeTableWord 64 w = some (decodeCause (BitVec.ofNat 64 w)) := by
  rw [decodeTableWord, decode_causeBytes]
  rfl

/-- A row of 16 bits below 1024 is an offset. -/
theorem decodeTableWord_offset (off : BitVec 10) : decodeTableWord 16 off.toNat = (decodeOffset off).toOption := by
  rw [decodeTableWord, ← decode_offsetBytes, BitVec.ofNat_toNat]

/-- Settles O6, by evaluating the decoder on each word. -/
theorem sampleWordsDecode : Obligations.SampleWordsDecode := by
  unfold Obligations.SampleWordsDecode
  simp only [decodeTableWord_cause]
  decide

/-- Settles O7: the arithmetic of the decoder's fields, as FrameCheck's second check has it. -/
theorem validOffsetsAreTheAlignedOnesBelow536 : Obligations.ValidOffsetsAreTheAlignedOnesBelow536 := by
  unfold Obligations.ValidOffsetsAreTheAlignedOnesBelow536
  exact offsetValid_iff

end Sys2Proof
end

section
/-! PROOFS of the invariant of the block: the reset state meets it, every step keeps it, and the outputs follow the FSM state under
it. The proof goes by the changes a step can make, in four groups: what touches no block register, entry to UNDEF,
progress of a trap after DECODE, and the rest one by one. -/

namespace Sys2Proof.Machine

/-! ## Facts of the FSM states -/

theorem frameLive_of_afterDecode {f : FsmState} (h : afterDecode f = true) : frameLive f = true := by
  cases f <;> first | rfl | cases h

theorem ne_undef_of_frameLive {f : FsmState} (h : frameLive f = true) : (f == .undef) = false := by
  cases f <;> first | rfl | cases h

theorem ne_halted_of_isBusy {f : FsmState} (h : isBusy f = true) : (f == .halted) = false := by
  cases f <;> first | rfl | cases h

/-! ## The four groups of changes -/

/-- The invariant speaks of the block registers, the reason, the parameters and memory. A change of memory keeps it that keeps the
canonical form and takes no byte back. -/
theorem Inv.of_block_eq {s t : State} (h : Inv s) (hblock : t.block = s.block) (hreason : t.undef_reason = s.undef_reason)
    (hcfg : t.cfg = s.cfg) (hmem : Memory.wf t.mem = true)
    (hstored : ∀ frame, frameStored s.mem frame → frameStored t.mem frame) : Inv t := by
  simp only [State.block, Block.mk.injEq] at hblock
  obtain ⟨hf, hepc, -, hcause, -, -, hframe, hasync, hcnum, hclass, hresume, -, hdiag, hhalted, hundef⟩ := hblock
  refine ⟨hmem, ?_, ?_, ?_, ?_, ?_, ?_, ?_, ?_, ?_⟩ <;>
    simp only [hf, hepc, hcause, hframe, hasync, hcnum, hclass, hresume, hdiag, hhalted, hundef, hreason, hcfg]
  · exact h.halted
  · exact h.undef
  · exact h.reason
  · exact h.diag
  · exact h.decoded
  · exact h.cls
  · exact h.resume
  · exact h.frame
  · exact fun hlive => hstored _ (h.stored hlive)

/-- A change outside the block that leaves memory alone keeps the invariant. -/
theorem Inv.of_mem_eq {s t : State} (h : Inv s) (hmem : t.mem = s.mem) (hblock : t.block = s.block)
    (hreason : t.undef_reason = s.undef_reason) (hcfg : t.cfg = s.cfg) : Inv t :=
  h.of_block_eq hblock hreason hcfg (hmem ▸ h.memory) fun _ hs => hmem ▸ hs

/-- `raise Undef` from a busy state keeps the invariant: UNDEF asks only for its flag and its reason. -/
theorem Inv.raiseUndef {s : State} (h : Inv s) (r : UndefReason) (hb : isBusy s.fsm_state = true) :
    Inv (raiseUndef r s) where
  memory := h.memory
  halted := by
    rw [raiseUndef_halted_q, h.halted, ne_halted_of_isBusy hb]
    rfl
  undef := rfl
  reason := rfl
  diag := nofun
  decoded := nofun
  cls := rfl
  resume := nofun
  frame := nofun
  stored := nofun

/-- `raise Undef(BusError)` after a transaction that the record keeps. -/
theorem Inv.raiseUndef_bus {s : State} (h : Inv s) (ops : List BusOp) (hb : isBusy s.fsm_state = true) :
    Inv (Machine.raiseUndef .busError { s with bus := ops }) :=
  Inv.raiseUndef (s := { s with bus := ops }) (h.of_mem_eq rfl rfl rfl rfl) .busError hb

/-- What a trap keeps from the end of DECODE on: its cause and its fields, its frame, and what lies around the block. -/
def trapHeld (s : State) : (Word × Word × Word) × (Bool × BitVec 12 × TrapClass) × (Bool × Option UndefReason) ×
    List Host.Cell × Params :=
  ((s.cause_q, s.epc_q, s.frame_q), (s.is_async_q, s.cnum_q, s.class_q), (s.undef_q, s.undef_reason), s.mem, s.cfg)

/-- A trap that goes on after DECODE keeps the invariant, if its next state may hold its class and has its resume address, its
spent list and its sticky flag. -/
theorem Inv.progress {s t : State} (h : Inv s) (hkeep : trapHeld t = trapHeld s) (hs : afterDecode s.fsm_state = true)
    (ht : afterDecode t.fsm_state = true) (hcls : classFits t.fsm_state s.class_q = true)
    (hresume : t.resume_q = resumeOf t.fsm_state s.class_q s.epc_q) (hdiag : diagSpent t.fsm_state = true → t.diag_q = [])
    (hhalted : t.halted_q = (t.fsm_state == .halted)) : Inv t := by
  simp only [trapHeld, Prod.mk.injEq] at hkeep
  obtain ⟨⟨hcause, hepc, hframe⟩, ⟨hasync, hcnum, hclass⟩, ⟨hundef, hreason⟩, hmem, hcfg⟩ := hkeep
  refine ⟨hmem ▸ h.memory, hhalted, ?_, ?_, hdiag, ?_, ?_, ?_, ?_, ?_⟩ <;>
    simp only [hcause, hepc, hframe, hasync, hcnum, hclass, hundef, hreason, hmem, hcfg]
  · rw [h.undef, ne_undef_of_frameLive (frameLive_of_afterDecode hs), ne_undef_of_frameLive (frameLive_of_afterDecode ht)]
  · exact h.reason
  · exact fun _ => h.decoded hs
  · exact hcls
  · exact fun _ => hresume
  · exact fun _ => h.frame (frameLive_of_afterDecode hs)
  · exact fun _ => h.stored (frameLive_of_afterDecode hs)

/-! ## The changes of one FSM state -/

/-- Acceptance asks of the frame what the invariant says of a live one. -/
theorem Inv.latchRequest {s : State} (h : Inv s) {r : TrapRequest} (hf : s.fsm_state = .idle)
    (hclear : frameOverlapsDevice s.cfg r.frame = false) (hstored : frameIsStored s.mem r.frame = true) :
    Inv (latchRequest r s) where
  memory := h.memory
  halted := by
    rw [latchRequest_halted_q, h.halted, hf]
    rfl
  undef := by
    rw [latchRequest_undef_q, h.undef, hf]
    rfl
  reason := h.reason
  diag := fun _ => h.diag (by rw [hf]; rfl)
  decoded := nofun
  cls := rfl
  resume := nofun
  frame := fun _ => hclear
  stored := fun _ => frameStored_of_frameIsStored hstored

/-- DECODE, of either tier: the fields are decoded here, and the next state is the tier's. -/
theorem Inv.atDecode {s : State} (h : Inv s) (hf : s.fsm_state = .decode) :
    Inv (atDecode (selectClass s.cause_q) s) := by
  have hhalted : s.halted_q = false := by rw [h.halted, hf]; rfl
  have hundef : s.undef_q = false := by rw [h.undef, hf]; rfl
  have hlive : frameLive s.fsm_state = true := by rw [hf]; rfl
  rw [selectClass_eq_classOfCause, Machine.atDecode]
  cases hc : tier (classOfCause s.cause_q) <;>
    exact ⟨h.memory, hhalted, hundef, h.reason, nofun, fun _ => ⟨rfl, rfl, rfl⟩, beq_iff_eq.2 hc, fun _ => rfl,
      fun _ => h.frame hlive, fun _ => h.stored hlive⟩

/-- The resume handshake ends the trap: IDLE asks for an empty list and clear flags. -/
theorem Inv.resumed {s : State} (h : Inv s) (hf : s.fsm_state = .resume) : Inv (goto .idle s) where
  memory := h.memory
  halted := by
    rw [goto_halted_q, h.halted, hf]
    rfl
  undef := by
    rw [goto_undef_q, h.undef, hf]
    rfl
  reason := h.reason
  diag := fun _ => h.diag (by rw [hf]; rfl)
  decoded := nofun
  cls := rfl
  resume := nofun
  frame := nofun
  stored := nofun

theorem Inv.resetBlock {s : State} (h : Inv s) : Inv (resetBlock s) :=
  ⟨h.memory, rfl, rfl, rfl, fun _ => rfl, nofun, rfl, nofun, nofun, nofun⟩

/-- Before RESUME the resume address is the interrupted one. -/
theorem Inv.resume_q_eq {s : State} (h : Inv s) {f : FsmState} (hf : s.fsm_state = f) (hd : afterDecode f = true)
    (hn : f ≠ .resume) : s.resume_q = s.epc_q := by
  rw [h.resume (hf ▸ hd), hf, resumeOf, if_neg fun hr => hn hr.1]

/-- A class that does not skip presents the interrupted address. -/
theorem resumeOf_keep {f : FsmState} {c : TrapClass} (epc : Word) (h : f ≠ .resume ∨ skips c = false) :
    resumeOf f c epc = epc := by
  rw [resumeOf, if_neg]
  rintro ⟨hf, hc⟩
  obtain h | h := h
  · exact h hf
  · rw [h] at hc
    cases hc

/-- A trap that goes on with its resume address unchanged. -/
theorem Inv.progress_keep {s t : State} (h : Inv s) {f : FsmState} (hf : s.fsm_state = f) (hs : afterDecode f = true)
    (hn : f ≠ .resume) (hkeep : trapHeld t = trapHeld s) (hresume : t.resume_q = s.resume_q)
    (ht : afterDecode t.fsm_state = true) (hcls : classFits t.fsm_state s.class_q = true)
    (hkept : t.fsm_state ≠ .resume ∨ skips s.class_q = false) (hdiag : diagSpent t.fsm_state = true → t.diag_q = [])
    (hhalted : t.halted_q = (t.fsm_state == .halted)) : Inv t := by
  refine h.progress hkeep (hf ▸ hs) ht hcls ?_ hdiag hhalted
  rw [hresume, h.resume_q_eq hf hs hn, resumeOf_keep _ hkept]

/-! ## Every step -/

/-- Each change one input can make keeps the invariant. -/
theorem Change.inv {s t : State} (h : Change s t) (hinv : Inv s) : Inv t := by
  have halted_of {f : FsmState} (hf : s.fsm_state = f) : s.halted_q = (f == .halted) := hf ▸ hinv.halted
  have cls_of {f : FsmState} (hf : s.fsm_state = f) : classFits f s.class_q = true := hf ▸ hinv.cls
  have diag_of {f : FsmState} (hf : s.fsm_state = f) (hd : diagSpent f = true) : s.diag_q = [] := hinv.diag (hf ▸ hd)
  have busy_of {f : FsmState} (hf : s.fsm_state = f) (hb : isBusy f = true) : isBusy s.fsm_state = true := hf ▸ hb
  cases h
  case wait | resuming | stuck => exact hinv
  case accept r _ hf _ hc hs => exact hinv.latchRequest hf hc hs
  case decodeLog hf _ hc =>
    have h := hinv.atDecode hf
    rwa [atDecode, hc] at h
  case decodePanic hf _ hc =>
    have h := hinv.atDecode hf
    rwa [atDecode, hc] at h
  case nested hb _ => exact hinv.raiseUndef .nested hb
  case emitError hf _ _ _ =>
    obtain hf | hf := hf <;> exact hinv.raiseUndef_bus _ (busy_of hf rfl)
  case readTimeError hf _ _ => exact hinv.raiseUndef_bus _ (busy_of hf rfl)
  case rearmError hf _ _ => exact hinv.raiseUndef_bus _ (busy_of hf rfl)
  case haltError hf _ _ => exact hinv.raiseUndef_bus _ (busy_of hf rfl)
  case emit hf _ _ _ =>
    obtain hf | hf := hf <;>
      exact hinv.progress_keep hf rfl nofun rfl rfl (hf ▸ rfl) hinv.cls (.inl (hf ▸ nofun)) (hf ▸ nofun) hinv.halted
  case logSkip hf _ hd hc =>
    refine hinv.progress rfl (hf ▸ rfl) rfl (cls_of hf :) ?_ (fun _ => hd) (halted_of hf :)
    rw [goto_resume_q, skip_resume_q, hinv.resume_q_eq hf rfl nofun, goto_fsm_state, resumeOf_resume, if_pos hc]
  case logTimer hf _ hd hc =>
    exact hinv.progress_keep hf rfl nofun rfl rfl rfl (beq_iff_eq.2 hc) (.inl nofun) (fun _ => hd) (halted_of hf :)
  case logKeep hf _ hd hc _ =>
    exact hinv.progress_keep hf rfl nofun rfl rfl rfl (cls_of hf :) (.inr hc) (fun _ => hd) (halted_of hf :)
  case readTime hf _ _ =>
    exact hinv.progress_keep hf rfl nofun rfl rfl rfl (cls_of hf :) (.inl nofun) (fun _ => diag_of hf rfl) (halted_of hf :)
  case rearm hf _ _ =>
    have hc : s.class_q = .timer := beq_iff_eq.1 (cls_of hf :)
    exact hinv.progress_keep hf rfl nofun rfl rfl rfl (hc ▸ rfl) (.inr (hc ▸ rfl)) (fun _ => diag_of hf rfl) (halted_of hf :)
  case resumed hf _ _ => exact hinv.resumed hf
  case panicEnd hf _ hd =>
    exact hinv.progress_keep hf rfl nofun rfl rfl rfl (cls_of hf :) (.inl nofun) (fun _ => hd) (halted_of hf :)
  case halt hf _ _ =>
    exact hinv.progress_keep hf rfl nofun rfl rfl rfl (cls_of hf :) (.inl nofun) (fun _ => diag_of hf rfl) rfl
  case reset => exact hinv.resetBlock
  case store =>
    exact hinv.of_block_eq rfl rfl rfl (wf_memWrite _ _ _ _ hinv.memory) fun _ => frameStored_memWrite _ _ _
  case accCheck | accError | accData | time | compare | receive | pend | storeUart | storeCompare | storeHalt =>
    exact hinv.of_mem_eq rfl rfl rfl rfl

/-- Settles O50: a step is one change, between two updates of fields of which the invariant does not speak. -/
theorem everyStepKeepsTheInvariant : Obligations.EveryStepKeepsTheInvariant := by
  unfold Obligations.EveryStepKeepsTheInvariant
  intro s t hinv hstep
  obtain ⟨-, u, hchange, rfl⟩ := step_change hstep
  have hbegin : Inv (beginStep s) := hinv.of_mem_eq rfl rfl rfl rfl
  have hu : Inv u := hchange.inv hbegin
  exact hu.of_mem_eq rfl rfl rfl rfl

/-! ## The reset state, and the outputs -/

theorem inv_reset : Inv State.reset := ⟨rfl, rfl, rfl, rfl, fun _ => rfl, nofun, rfl, nofun, nofun, nofun⟩

/-- Settles O49: the values of 10_state R50, and the placeholder instance by evaluation. -/
theorem resetMeetsTheInvariant : Obligations.ResetMeetsTheInvariant := by
  unfold Obligations.ResetMeetsTheInvariant
  exact ⟨inv_reset, rfl, rfl, rfl, rfl, by decide⟩

/-- Settles O46: three outputs are tests of the state, two are flags that the invariant ties to it. -/
theorem outputsFollowTheState : Obligations.OutputsFollowTheState := by
  unfold Obligations.OutputsFollowTheState
  intro s hinv
  refine ⟨?_, ?_, ?_, ?_, resume_valid_o_iff, fun hvalid => ?_⟩
  · simp [trap_ready_o]
  · simp [busy_o]
  · simp [halted_o, hinv.halted]
  · simp [undef_o, hinv.undef]
  · rw [resume_pc_o, if_pos (resume_valid_o_iff.1 hvalid)]

end Sys2Proof.Machine
end

section
/-! PROOFS of the accessor and of memory: an accessor request changes no register (43_frame_accessor R195, R197), a stored frame is
always readable and only an unstored byte faults (60_exceptions R250 (b), R263), and nothing writes a live frame (R194). -/

namespace Sys2Proof.Machine

/-! ## The bytes of a frame field -/

/-- What it takes to pass checks 1 to 4 of FrameCheck. -/
theorem frameCheck_eq_none_iff {s : State} {off : BitVec 10} :
    frameCheck s off = none ↔ frameLive s.fsm_state = true ∧ (off.toNat % 8 = 0 ∧ off.toNat < 536) ∧
      s.frame_q.toNat % 8 = 0 ∧ s.frame_q.toNat + 536 ≤ 2 ^ 64 := by
  refine ⟨fun h => ?_, fun ⟨hlive, ⟨hmul, hlt⟩, hal, hfits⟩ => frameCheck_passes hlive hmul hlt hal hfits⟩
  rw [frameCheck_eq] at h
  split_ifs at h with hlive hoff hal hfits
  exact ⟨hlive, hoff, not_not.1 hal, Nat.not_lt.1 hfits⟩

/-- The bytes of a field of a frame that does not wrap. -/
theorem fieldAddr_add_toNat {frame : Word} {off : BitVec 10} {k : Nat} (hmul : off.toNat % 8 = 0) (hlt : off.toNat < 536)
    (hfits : frame.toNat + 536 ≤ 2 ^ 64) (hk : k < 8) :
    (fieldAddr frame off + BitVec.ofNat 64 k).toNat = frame.toNat + (off.toNat + k) := by
  rw [fieldAddr, BitVec.toNat_add, BitVec.toNat_add, BitVec.toNat_setWidth, BitVec.toNat_ofNat]
  omega

/-- On a stored frame every read that passes the checks has a value. -/
theorem memRead_field_isSome {s : State} {off : BitVec 10} (hcheck : frameCheck s off = none)
    (hstored : frameStored s.mem s.frame_q) : (memRead s.mem (fieldAddr s.frame_q off) 8).isSome = true := by
  obtain ⟨-, ⟨hmul, hlt⟩, -, hfits⟩ := frameCheck_eq_none_iff.1 hcheck
  refine memRead_isSome 8 _ _ fun k hk => ?_
  rw [fieldAddr_add_toNat hmul hlt hfits hk]
  exact hstored (off.toNat + k) (by rw [frameSize]; omega) (by omega)

/-- Settles O35: the checks pass, each byte of the field is stored, and the answer is read off its bytes. -/
theorem storedFrameIsAlwaysReadable : Obligations.StoredFrameIsAlwaysReadable := by
  unfold Obligations.StoredFrameIsAlwaysReadable
  intro i off s hi hlive hal hfits hbus hstored
  obtain ⟨hmul, hlt⟩ := offset_aligned_lt hi
  have hcheck : frameCheck s off = none := frameCheck_passes hlive hmul hlt hal hfits
  obtain ⟨v, hread⟩ := Option.isSome_iff_exists.1 (memRead_field_isSome hcheck hstored)
  refine ⟨_, v, (exec_accessor hi s).trans (accessorRead_data hcheck hbus hread), rfl, fun k hk => ?_⟩
  rw [Nat.add_assoc, ← fieldAddr_add_toNat hmul hlt hfits hk]
  exact readByte_of_memRead 8 le_rfl hread k hk

/-! ## What faults -/

theorem accessorRead_unstored {s : State} {off : BitVec 10} (hcheck : frameCheck s off = none)
    (hbus : accBusError s = false) (hread : memRead s.mem (fieldAddr s.frame_q off) 8 = none) :
    accessorRead off s = .fault .frameByteNotStored := by
  simp [accessorRead, hcheck, hbus, hread]

/-- An accessor read faults in one case only. -/
theorem accessorRead_fault_cases {s : State} {off : BitVec 10} {f : Fault} (h : accessorRead off s = .fault f) :
    frameCheck s off = none ∧ accBusError s = false ∧ memRead s.mem (fieldAddr s.frame_q off) 8 = none := by
  cases hcheck : frameCheck s off with
  | some r => rw [accessorRead_fails hcheck] at h; cases h
  | none =>
    cases hbus : accBusError s with
    | true => rw [accessorRead_busError hcheck hbus] at h; cases h
    | false =>
      cases hread : memRead s.mem (fieldAddr s.frame_q off) 8 with
      | some v => rw [accessorRead_data hcheck hbus hread] at h; cases h
      | none => exact ⟨rfl, rfl, rfl⟩

theorem acceptRequest_ne_fault (s : State) (f : Fault) : acceptRequest s ≠ .fault f := by
  unfold acceptRequest
  split
  · nofun
  · split_ifs <;> nofun

/-- No cause operation faults. -/
theorem dispatchStep_ne_fault (d l : State → State) (s : State) (f : Fault) : dispatchStep d l s ≠ .fault f := by
  unfold dispatchStep
  split
  · exact acceptRequest_ne_fault s f
  all_goals nofun

theorem outsideStore_ne_fault (who : Agent) (addr : Word) (size : Size) (v : Word) (s : State) (f : Fault) :
    outsideStore who addr size v s ≠ .fault f := by
  unfold outsideStore
  split
  · nofun
  · split
    · nofun
    · split
      · nofun
      · split <;> nofun

/-- Of the inputs only an accessor request can fault. -/
theorem takeInput_fault_cases {s : State} {f : Fault} (h : takeInput s = .fault f) :
    ∃ off e rest, s.inputs = .read off e :: rest ∧ accessorRead off s = .fault f := by
  unfold takeInput at h
  split at h
  · exact absurd (fsmTransition_eq s ▸ h) (dispatchStep_ne_fault _ _ s f)
  · exact absurd (fsmTransition_eq s ▸ h) (dispatchStep_ne_fault _ _ s f)
  · next off e rest hi => exact ⟨off, e, rest, hi, accessorRequest_eq off s ▸ h⟩
  · cases h
  · cases h
  · exact absurd h (outsideStore_ne_fault _ _ _ _ s f)
  · cases h
  · exact absurd h (outsideStore_ne_fault _ _ _ _ s f)
  · cases h

theorem mapNext_fault {g : State → State} {o : Out} {f : Fault} (h : mapNext g o = .fault f) : o = .fault f := by
  cases o <;> cases h
  rfl

theorem step_fault {s : State} {f : Fault} (h : step s = .fault f) : takeInput (beginStep s) = .fault f := by
  unfold step at h
  split at h
  · exact mapNext_fault h
  · cases h

theorem accBusError_of_read {s : State} {off : BitVec 10} {e : Bool} {rest : List Input}
    (hi : s.inputs = .read off e :: rest) : accBusError s = e := by
  simp [accBusError, hi]

/-- A step faults on an accessor request that passes every check and reads an unstored byte. -/
theorem step_fault_cases {s : State} {f : Fault} (h : step s = .fault f) :
    ∃ off rest, s.inputs = .read off false :: rest ∧ frameCheck s off = none ∧
      memRead s.mem (fieldAddr s.frame_q off) 8 = none := by
  obtain ⟨off, e, rest, hi, hread⟩ := takeInput_fault_cases (step_fault h)
  obtain ⟨hcheck, hbus, hunstored⟩ := accessorRead_fault_cases hread
  have he : e = false := (accBusError_of_read hi).symm.trans hbus
  exact ⟨off, rest, he ▸ hi, hcheck, hunstored⟩

/-- Settles O33, by the one branch of the accessor read that faults and by none of the other inputs having one. -/
theorem onlyUnstoredFrameBytesFault : Obligations.OnlyUnstoredFrameBytesFault := by
  unfold Obligations.OnlyUnstoredFrameBytesFault
  refine ⟨fun i off s hi hcheck hbus hread => ?_, fun s f => step_fault_cases⟩
  rw [exec_accessor hi, accessorRead_unstored hcheck hbus hread]

/-- Settles O34: a frame that passes the checks is live, so the invariant has it stored. -/
theorem noStepFaultsUnderTheInvariant : Obligations.NoStepFaultsUnderTheInvariant := by
  unfold Obligations.NoStepFaultsUnderTheInvariant
  intro s f hinv hfault
  obtain ⟨off, -, -, hcheck, hunstored⟩ := step_fault_cases hfault
  obtain ⟨hlive, -⟩ := frameCheck_eq_none_iff.1 hcheck
  have hsome := memRead_field_isSome hcheck (hinv.stored hlive)
  rw [hunstored] at hsome
  cases hsome

/-! ## What an accessor request leaves alone -/

/-- Only an accessor request writes the answer port. -/
theorem Change.acc_answer_eq {s t : State} (h : Change s t) (hread : ∀ off e, s.inputs.head? ≠ some (.read off e)) :
    t.acc_answer = s.acc_answer := by
  cases h
  case accCheck off e rest _ hi _ => exact absurd (by rw [hi]; rfl) (hread off e)
  case accError off rest hi _ => exact absurd (by rw [hi]; rfl) (hread off true)
  case accData off rest _ hi _ _ => exact absurd (by rw [hi]; rfl) (hread off false)
  all_goals rfl

/-- Settles O32: the three answers of an accessor read write the answer port and the record of the bus alone. -/
theorem accessorReadChangesNoRegister : Obligations.AccessorReadChangesNoRegister := by
  unfold Obligations.AccessorReadChangesNoRegister
  refine ⟨fun s t off e rest hi hstep => ?_, fun s t hstep hread => ?_⟩
  · obtain ⟨hwf, -⟩ := step_change hstep
    rw [step_read hwf hi] at hstep
    obtain ⟨u, hu, rfl⟩ := mapNext_next hstep
    obtain ⟨r, -, rfl⟩ | ⟨-, -, rfl⟩ | ⟨v, -, -, -, rfl⟩ := accessorRead_cases hu
    · exact ⟨rfl, fun _ => rfl, rfl, rfl, rfl, rfl, rfl, rfl, rfl, rfl, rfl, rfl, .inl rfl⟩
    · exact ⟨rfl, fun _ => rfl, rfl, rfl, rfl, rfl, rfl, rfl, rfl, rfl, rfl, rfl, .inr (.inr rfl)⟩
    · exact ⟨rfl, fun _ => rfl, rfl, rfl, rfl, rfl, rfl, rfl, rfl, rfl, rfl, rfl, .inr (.inl ⟨v, rfl⟩)⟩
  · obtain ⟨-, u, hchange, rfl⟩ := step_change hstep
    rw [acc_done_o, endStep_acc_answer, hchange.acc_answer_eq hread, beginStep_acc_answer]
    rfl

/-! ## Who writes memory -/

/-- Only a store from outside changes memory. -/
theorem Change.mem_eq {s t : State} (h : Change s t)
    (hstore : ∀ who addr size v, s.inputs.head? ≠ some (.store who addr size v)) : t.mem = s.mem := by
  cases h
  case store who addr size v rest hi _ _ _ _ => exact absurd (by rw [hi]; rfl) (hstore who addr size v)
  all_goals rfl

/-- An access that does not touch a region leaves its bytes alone. -/
theorem readByte_memWrite_of_not_touches {r : Region} {addr : Word} {n a : Nat} (m : List Host.Cell) (v : Word)
    (h : touches r addr n = false) (ha : r.holds a = true) : readByte (memWrite m addr n v) a = readByte m a := by
  refine readByte_memWrite_of_not_touched n m addr v a fun k hk heq => ?_
  have htouched : (touched addr n).any r.holds = true :=
    List.any_eq_true.2 ⟨a, List.mem_map.2 ⟨k, List.mem_range.2 hk, heq.symm⟩, ha⟩
  rw [touches, htouched] at h
  cases h

/-- No change writes a byte of a live frame. -/
theorem Change.readByte_liveFrame {s t : State} (h : Change s t) (hlive : frameLive s.fsm_state = true) {a : Nat}
    (ha : (frameRegion s.frame_q).holds a = true) : readByte t.mem a = readByte s.mem a := by
  cases h
  case store who addr size v rest _ _ _ _ hl =>
    rw [hlive, Bool.true_and] at hl
    exact readByte_memWrite_of_not_touches s.mem v hl ha
  all_goals rfl

/-- Settles O36, by the one change that writes memory and its guard. -/
theorem liveFrameIsNeverWritten : Obligations.LiveFrameIsNeverWritten := by
  unfold Obligations.LiveFrameIsNeverWritten
  intro s t hstep
  obtain ⟨-, u, hchange, rfl⟩ := step_change hstep
  refine ⟨fun hstore a => ?_, fun hlive a hlo hhi => ?_⟩
  · rw [endStep_mem, hchange.mem_eq hstore, beginStep_mem]
  · have ha : (frameRegion s.frame_q).holds a = true := by simp [Region.holds, frameRegion, frameSize, hlo, hhi]
    exact hchange.readByte_liveFrame hlive ha

end Sys2Proof.Machine
end

section
/-! PROOFS of the cause operations: every transition one of them makes, as one relation that says exactly when `exec` answers with a
next state, and from it the equations of each FSM state and what each of them leaves alone. -/

namespace Sys2Proof.Machine

/-! ## What a class does in DECODE and at the end of LOG, as values -/

/-- The text that DECODE draws for a class: a message or a panic record (40_cause_decode R122). -/
def drawnText (c : TrapClass) (s : State) : List Byte :=
  match tier c with
  | .recoverable => Config.diagBytes s.draws c s.epc_q s.tval_q s.cause_q s.hartid_q
  | .fatal => Config.panicBytes s.draws c s.epc_q s.tval_q s.cause_q s.hartid_q

/-- The state that writes the text of a class. -/
def textState (c : TrapClass) : FsmState :=
  match tier c with
  | .recoverable => .log
  | .fatal => .panicLog

/-- The resume address that the end of LOG leaves (30_encoding R105). -/
def logEndResume (c : TrapClass) (a : Word) : Word := if skips c then a + skipBytes else a

/-- The state after LOG (44_diag_and_halt R212). -/
def logEndState (c : TrapClass) : FsmState := if c = .timer then .timerRead else .resume

theorem drawnText_recoverable {c : TrapClass} (h : tier c = .recoverable) (s : State) :
    drawnText c s = Config.diagBytes s.draws c s.epc_q s.tval_q s.cause_q s.hartid_q := by
  simp [drawnText, h]

theorem drawnText_fatal {c : TrapClass} (h : tier c = .fatal) (s : State) :
    drawnText c s = Config.panicBytes s.draws c s.epc_q s.tval_q s.cause_q s.hartid_q := by
  simp [drawnText, h]

theorem textState_recoverable {c : TrapClass} (h : tier c = .recoverable) : textState c = .log := by
  simp [textState, h]

theorem textState_fatal {c : TrapClass} (h : tier c = .fatal) : textState c = .panicLog := by
  simp [textState, h]

/-- A text is written in LOG or in PANIC_LOG. -/
theorem textState_cases (c : TrapClass) : textState c = .log ∨ textState c = .panicLog := by
  cases h : tier c
  · exact .inl (textState_recoverable h)
  · exact .inr (textState_fatal h)

/-- DECODE of a class, whatever its tier. -/
theorem atDecode_eq_drawn (c : TrapClass) (s : State) :
    atDecode c s = { decodeFields s with class_q := c, diag_q := drawnText c s, fsm_state := textState c } := by
  rw [atDecode, drawnText, textState]
  cases tier c <;> rfl

/-- The end of LOG of a class, as the two registers it writes. -/
theorem atLogEnd_eq (c : TrapClass) (s : State) :
    atLogEnd c s = { s with resume_q := logEndResume c s.resume_q, fsm_state := logEndState c } := by
  unfold atLogEnd logEndResume logEndState
  cases hs : skips c
  · simp only [Bool.false_eq_true, if_false]
    split_ifs <;> rfl
  · have hc : c ≠ .timer := by rintro rfl; contradiction
    simp only [if_true, if_neg hc]
    rfl

/-! ## The steps with a transaction, by the answer of the bus -/

theorem emitStep_ok {f : State → State} {s : State} {b : Byte} {bs : List Byte} (hd : s.diag_q = b :: bs)
    (he : (signals s).bus_error = false) :
    emitStep f s = { s with diag_q := bs, uart_tx := s.uart_tx ++ [b], bus := s.bus ++ [uartOp s.cfg b] } := by
  rw [emitStep_cons hd, emit_ok he]

theorem emitStep_error {f : State → State} {s : State} {b : Byte} {bs : List Byte} (hd : s.diag_q = b :: bs)
    (he : (signals s).bus_error = true) :
    emitStep f s =
      raiseUndef .busError { s with bus := s.bus ++ [.writeError .uart s.cfg.uart_base 1 (b.setWidth 64)] } := by
  rw [emitStep_cons hd, busWrite_error he]
  rfl

theorem timerReadStep_ok {s : State} (he : (signals s).bus_error = false) :
    timerReadStep s = { s with now_q := s.mtime, fsm_state := .timerWrite,
                               bus := s.bus ++ [.read .mtime s.cfg.mtime_addr 8 s.mtime] } := by
  simp only [timerReadStep, busReadTime, he]
  rfl

theorem timerReadStep_error {s : State} (he : (signals s).bus_error = true) :
    timerReadStep s = raiseUndef .busError { s with bus := s.bus ++ [.readError .mtime s.cfg.mtime_addr 8] } := by
  simp only [timerReadStep, busReadTime, he]
  rfl

theorem haltWriteStep_ok {s : State} (he : (signals s).bus_error = false) :
    haltWriteStep s =
      { s with halted_q := true, fsm_state := .halted,
               halt_seen := s.halt_seen ++ [lowBytes (sizeBytes s.cfg.halt_width) s.cfg.halt_value],
               bus := s.bus ++ [haltOp s.cfg] } := by
  rw [haltWriteStep, busWrite_ok he]
  rfl

theorem haltWriteStep_error {s : State} (he : (signals s).bus_error = true) :
    haltWriteStep s = raiseUndef .busError
      { s with bus := s.bus ++ [.writeError .halt s.cfg.halt_addr (sizeBytes s.cfg.halt_width)
                        (lowBytes (sizeBytes s.cfg.halt_width) s.cfg.halt_value)] } := by
  rw [haltWriteStep, busWrite_error he]
  rfl

theorem unlessNested_isSome {act : State → State} {s : State} (h : (signals s).trap.isSome = true) :
    unlessNested act s = raiseUndef .nested s := by
  rw [unlessNested, if_pos h]

/-! ## The transitions of a cause operation -/

/-- The next states that a cause operation of class `c` can answer with, and their guards. `Change` says this of a whole step, which
runs the operation of the latched cause; here the class is the operation's, whatever `cause_q` and `class_q` hold. -/
inductive Transition (c : TrapClass) (s : State) : State → Prop
  /-- IDLE. -/
  | wait (hf : s.fsm_state = .idle) (ht : (signals s).trap = none) : Transition c s s
  | accept (r : TrapRequest) (hf : s.fsm_state = .idle) (ht : (signals s).trap = some r)
      (hc : frameOverlapsDevice s.cfg r.frame = false) (hs : frameIsStored s.mem r.frame = true) :
      Transition c s (latchRequest r s)
  /-- A request in a busy state. -/
  | nested (hb : isBusy s.fsm_state = true) (ht : (signals s).trap.isSome = true) :
      Transition c s (raiseUndef .nested s)
  | decode (hf : s.fsm_state = .decode) (ht : (signals s).trap = none) :
      Transition c s { decodeFields s with class_q := c, diag_q := drawnText c s, fsm_state := textState c }
  /-- LOG and PANIC_LOG with a byte left. -/
  | emit (b : Byte) (bs : List Byte) (hf : s.fsm_state = .log ∨ s.fsm_state = .panicLog)
      (ht : (signals s).trap = none) (he : (signals s).bus_error = false) (hd : s.diag_q = b :: bs) :
      Transition c s { s with diag_q := bs, uart_tx := s.uart_tx ++ [b], bus := s.bus ++ [uartOp s.cfg b] }
  | emitError (b : Byte) (bs : List Byte) (hf : s.fsm_state = .log ∨ s.fsm_state = .panicLog)
      (ht : (signals s).trap = none) (he : (signals s).bus_error = true) (hd : s.diag_q = b :: bs) :
      Transition c s
        (raiseUndef .busError { s with bus := s.bus ++ [.writeError .uart s.cfg.uart_base 1 (b.setWidth 64)] })
  /-- LOG and PANIC_LOG with no byte left. -/
  | logEnd (hf : s.fsm_state = .log) (ht : (signals s).trap = none) (hd : s.diag_q = []) :
      Transition c s { s with resume_q := logEndResume c s.resume_q, fsm_state := logEndState c }
  | panicEnd (hf : s.fsm_state = .panicLog) (ht : (signals s).trap = none) (hd : s.diag_q = []) :
      Transition c s (goto .haltWrite s)
  /-- TIMER_READ and TIMER_WRITE. -/
  | readTime (hf : s.fsm_state = .timerRead) (ht : (signals s).trap = none) (he : (signals s).bus_error = false) :
      Transition c s { s with now_q := s.mtime, fsm_state := .timerWrite,
                              bus := s.bus ++ [.read .mtime s.cfg.mtime_addr 8 s.mtime] }
  | readTimeError (hf : s.fsm_state = .timerRead) (ht : (signals s).trap = none)
      (he : (signals s).bus_error = true) :
      Transition c s (raiseUndef .busError { s with bus := s.bus ++ [.readError .mtime s.cfg.mtime_addr 8] })
  | rearm (hf : s.fsm_state = .timerWrite) (ht : (signals s).trap = none) (he : (signals s).bus_error = false) :
      Transition c s { s with mtimecmp := s.now_q + tick, fsm_state := .resume,
                              bus := s.bus ++ [.write .mtimecmp s.cfg.mtimecmp_addr 8 (s.now_q + tick)] }
  | rearmError (hf : s.fsm_state = .timerWrite) (ht : (signals s).trap = none) (he : (signals s).bus_error = true) :
      Transition c s (raiseUndef .busError
        { s with bus := s.bus ++ [.writeError .mtimecmp s.cfg.mtimecmp_addr 8 (s.now_q + tick)] })
  /-- RESUME. -/
  | resumed (hf : s.fsm_state = .resume) (ht : (signals s).trap = none) (hr : (signals s).resume_ready = true) :
      Transition c s (goto .idle s)
  | resuming (hf : s.fsm_state = .resume) (ht : (signals s).trap = none) (hr : (signals s).resume_ready = false) :
      Transition c s s
  /-- HALT_WRITE. -/
  | halt (hf : s.fsm_state = .haltWrite) (ht : (signals s).trap = none) (he : (signals s).bus_error = false) :
      Transition c s
        { s with halted_q := true, fsm_state := .halted,
                 halt_seen := s.halt_seen ++ [lowBytes (sizeBytes s.cfg.halt_width) s.cfg.halt_value],
                 bus := s.bus ++ [haltOp s.cfg] }
  | haltError (hf : s.fsm_state = .haltWrite) (ht : (signals s).trap = none) (he : (signals s).bus_error = true) :
      Transition c s (raiseUndef .busError
        { s with bus := s.bus ++ [.writeError .halt s.cfg.halt_addr (sizeBytes s.cfg.halt_width)
                          (lowBytes (sizeBytes s.cfg.halt_width) s.cfg.halt_value)] })
  /-- HALTED and UNDEF. -/
  | stuck (hf : s.fsm_state = .halted ∨ s.fsm_state = .undef) : Transition c s s

/-- Each transition is what the FSM does. -/
theorem Transition.dispatchStep_eq {c : TrapClass} {s t : State} (h : Transition c s t) :
    dispatchStep (atDecode c) (atLogEnd c) s = .next t := by
  cases h
  case wait hf ht => rw [dispatchStep_idle _ _ hf, acceptRequest_none ht]
  case accept hf ht hc hs => rw [dispatchStep_idle _ _ hf, acceptRequest_some ht hc hs]
  case nested hb ht => rw [dispatchStep_busy hb, unlessNested_isSome ht]
  case decode hf ht => rw [dispatchStep_decode _ _ hf, unlessNested_quiet ht, atDecode_eq_drawn]
  case emit hf ht he hd =>
    obtain hf | hf := hf
    · rw [dispatchStep_log _ _ hf, unlessNested_quiet ht, emitStep_ok hd he]
    · rw [dispatchStep_panicLog _ _ hf, unlessNested_quiet ht, emitStep_ok hd he]
  case emitError hf ht he hd =>
    obtain hf | hf := hf
    · rw [dispatchStep_log _ _ hf, unlessNested_quiet ht, emitStep_error hd he]
    · rw [dispatchStep_panicLog _ _ hf, unlessNested_quiet ht, emitStep_error hd he]
  case logEnd hf ht hd => rw [dispatchStep_log _ _ hf, unlessNested_quiet ht, emitStep_nil hd, atLogEnd_eq]
  case panicEnd hf ht hd => rw [dispatchStep_panicLog _ _ hf, unlessNested_quiet ht, emitStep_nil hd]
  case readTime hf ht he => rw [dispatchStep_timerRead _ _ hf, unlessNested_quiet ht, timerReadStep_ok he]
  case readTimeError hf ht he => rw [dispatchStep_timerRead _ _ hf, unlessNested_quiet ht, timerReadStep_error he]
  case rearm hf ht he => rw [dispatchStep_timerWrite _ _ hf, unlessNested_quiet ht, timerWriteStep, rearm_ok _ he]
  case rearmError hf ht he =>
    rw [dispatchStep_timerWrite _ _ hf, unlessNested_quiet ht, timerWriteStep, rearm_error _ he]
  case resumed hf ht hr => rw [dispatchStep_resume _ _ hf, unlessNested_quiet ht, resumeStep_ready hr]
  case resuming hf ht hr => rw [dispatchStep_resume _ _ hf, unlessNested_quiet ht, resumeStep_waiting hr]
  case halt hf ht he => rw [dispatchStep_haltWrite _ _ hf, unlessNested_quiet ht, haltWriteStep_ok he]
  case haltError hf ht he => rw [dispatchStep_haltWrite _ _ hf, unlessNested_quiet ht, haltWriteStep_error he]
  case stuck hf => exact dispatchStep_absorbing _ _ hf

/-- In LOG and PANIC_LOG a byte left is written, or answered `error`. -/
theorem exists_transition_of_byte (c : TrapClass) {s : State} {b : Byte} {bs : List Byte}
    (hf : s.fsm_state = .log ∨ s.fsm_state = .panicLog) (ht : (signals s).trap = none) (hd : s.diag_q = b :: bs) :
    ∃ t, Transition c s t := by
  cases he : (signals s).bus_error
  · exact ⟨_, .emit b bs hf ht he hd⟩
  · exact ⟨_, .emitError b bs hf ht he hd⟩

/-- Outside IDLE there is always a transition. -/
theorem exists_transition (c : TrapClass) {s : State} (hidle : s.fsm_state ≠ .idle) : ∃ t, Transition c s t := by
  by_cases hb : isBusy s.fsm_state = true
  · cases ht : (signals s).trap with
    | some r => exact ⟨_, .nested hb (by rw [ht]; rfl)⟩
    | none =>
      cases hf : s.fsm_state <;> simp [hf, isBusy] at hb
      case decode => exact ⟨_, .decode hf ht⟩
      case log =>
        cases hd : s.diag_q with
        | nil => exact ⟨_, .logEnd hf ht hd⟩
        | cons b bs => exact exists_transition_of_byte c (.inl hf) ht hd
      case panicLog =>
        cases hd : s.diag_q with
        | nil => exact ⟨_, .panicEnd hf ht hd⟩
        | cons b bs => exact exists_transition_of_byte c (.inr hf) ht hd
      case timerRead =>
        cases he : (signals s).bus_error
        · exact ⟨_, .readTime hf ht he⟩
        · exact ⟨_, .readTimeError hf ht he⟩
      case timerWrite =>
        cases he : (signals s).bus_error
        · exact ⟨_, .rearm hf ht he⟩
        · exact ⟨_, .rearmError hf ht he⟩
      case resume =>
        cases hr : (signals s).resume_ready
        · exact ⟨_, .resuming hf ht hr⟩
        · exact ⟨_, .resumed hf ht hr⟩
      case haltWrite =>
        cases he : (signals s).bus_error
        · exact ⟨_, .halt hf ht he⟩
        · exact ⟨_, .haltError hf ht he⟩
  · cases hf : s.fsm_state <;> simp [hf, isBusy] at hb hidle
    case halted => exact ⟨_, .stuck (.inl hf)⟩
    case undef => exact ⟨_, .stuck (.inr hf)⟩

/-- A cause operation answers with a next state exactly by a transition of its class. -/
theorem exec_eq_next_iff {i : Instr} {c : TrapClass} {s t : State} (hi : opClass i = some c) :
    exec i s = .next t ↔ Transition c s t := by
  rw [exec_cause hi]
  refine ⟨fun h => ?_, Transition.dispatchStep_eq⟩
  by_cases hidle : s.fsm_state = .idle
  · rw [dispatchStep_idle _ _ hidle] at h
    obtain ⟨ht, rfl⟩ | ⟨r, ht, hc, hs, rfl⟩ := acceptRequest_cases h
    · exact .wait hidle ht
    · exact .accept r hidle ht hc hs
  · obtain ⟨u, hu⟩ := exists_transition c hidle
    cases hu.dispatchStep_eq.symm.trans h
    exact hu

/-! ## IDLE -/

/-- Settles O12: acceptance with no request waits. -/
theorem idleWaitsForARequest : Obligations.IdleWaitsForARequest := by
  unfold Obligations.IdleWaitsForARequest
  refine ⟨fun i c s hi hf ht => (exec_eq_next_iff hi).2 (.wait hf ht), fun s hwf hf hfsm ht => ?_⟩
  rw [step_fsm hwf hfsm, dispatchStep_idle (s := beginStep s) _ _ hf, acceptRequest_none (by simpa using ht), mapNext]

/-- The frame overlaps a device when no order of the two regions separates them (20_memory R67). -/
theorem frameOverlapsDevice_iff {p : Params} {frame : Word} :
    frameOverlapsDevice p frame = true ↔
      ∃ g ∈ deviceRegions p, ¬ (g.base + g.size ≤ frame.toNat ∨ frame.toNat + 536 ≤ g.base) := by
  simp only [frameOverlapsDevice, List.any_eq_true, Bool.not_eq_true', Bool.eq_false_iff, ne_eq, Region.disjoint_iff,
    frameRegion, frameSize]

/-- Acceptance refuses a request for its overlap exactly when there is one. -/
theorem acceptRequest_eq_overlap_iff {s : State} {r : TrapRequest} (ht : (signals s).trap = some r) :
    acceptRequest s = .refused .frameOverlapsDevice ↔ frameOverlapsDevice s.cfg r.frame = true := by
  refine ⟨fun h => ?_, acceptRequest_overlap ht⟩
  by_contra hclear
  have hclear : frameOverlapsDevice s.cfg r.frame = false := by simpa using hclear
  cases hstored : frameIsStored s.mem r.frame
  · rw [acceptRequest_unstored ht hclear hstored] at h
    cases h
  · rw [acceptRequest_some ht hclear hstored] at h
    cases h

/-- Settles O13: acceptance asks for the overlap first. -/
theorem frameOverDeviceHasNoMeaning : Obligations.FrameOverDeviceHasNoMeaning := by
  unfold Obligations.FrameOverDeviceHasNoMeaning
  intro i c s r hi hf ht
  rw [exec_cause_idle hi hf, acceptRequest_eq_overlap_iff ht, frameOverlapsDevice_iff]

/-- Acceptance refuses a request clear of the devices exactly when its frame is not stored. -/
theorem acceptRequest_eq_unstored_iff {s : State} {r : TrapRequest} (ht : (signals s).trap = some r)
    (hclear : frameOverlapsDevice s.cfg r.frame = false) :
    acceptRequest s = .refused .frameNotStored ↔ frameIsStored s.mem r.frame = false := by
  refine ⟨fun h => ?_, acceptRequest_unstored ht hclear⟩
  by_contra hstored
  rw [acceptRequest_some ht hclear (by simpa using hstored)] at h
  cases h

/-- A frame that is not wholly stored lacks a byte. -/
theorem not_frameStored_iff {m : List Host.Cell} {frame : Word} :
    ¬ frameStored m frame ↔ ∃ k, k < 536 ∧ frame.toNat + k < 2 ^ 64 ∧ readByte m (frame.toNat + k) = none := by
  simp [frameStored, frameSize]

/-- Settles O14: in canonical memory the one pass finds exactly the stored frames. -/
theorem unstoredFrameHasNoMeaning : Obligations.UnstoredFrameHasNoMeaning := by
  unfold Obligations.UnstoredFrameHasNoMeaning
  intro i c s r hi hf ht hmem hclear
  rw [exec_cause_idle hi hf, acceptRequest_eq_unstored_iff ht hclear, ← not_frameStored_iff,
    ← frameIsStored_iff r.frame hmem, Bool.not_eq_true]

/-! ## DECODE -/

theorem tier_recoverable_of_mem : ∀ c ∈ [TrapClass.swi, .timer, .ext, .ecallU, .ecallS, .ipf, .lpf, .spf],
    tier c = .recoverable := by decide

theorem tier_fatal_of_mem : ∀ c ∈ [TrapClass.illegal, .ecallM, .asyncOther, .syncOther], tier c = .fatal := by decide

/-- Settles O15, by the transition of DECODE and the tier. -/
theorem decodeOfRecoverableOperations : Obligations.DecodeOfRecoverableOperations := by
  unfold Obligations.DecodeOfRecoverableOperations
  intro i c s hi hc hf ht
  have htier : tier c = .recoverable := tier_recoverable_of_mem c hc
  rw [(exec_eq_next_iff hi).2 (.decode hf ht), drawnText_recoverable htier, textState_recoverable htier]
  rfl

/-- Settles O16, by the transition of DECODE and the tier. -/
theorem decodeOfFatalOperations : Obligations.DecodeOfFatalOperations := by
  unfold Obligations.DecodeOfFatalOperations
  intro i c s hi hc hf ht
  have htier : tier c = .fatal := tier_fatal_of_mem c hc
  rw [(exec_eq_next_iff hi).2 (.decode hf ht), drawnText_fatal htier, textState_fatal htier]
  rfl

/-! ## LOG and PANIC_LOG -/

/-- Settles O18, by the transitions of LOG with a byte left and of a nested request. -/
theorem logWritesTheHeadByte : Obligations.LogWritesTheHeadByte := by
  unfold Obligations.LogWritesTheHeadByte
  intro i c s b bs hi hf hd
  have hbusy : isBusy s.fsm_state = true := by rw [hf]; rfl
  exact ⟨fun ht he => (exec_eq_next_iff hi).2 (.emit b bs (.inl hf) ht he hd),
    fun ht he => (exec_eq_next_iff hi).2 (.emitError b bs (.inl hf) ht he hd),
    fun ht => (exec_eq_next_iff hi).2 (.nested hbusy ht)⟩

/-- Settles O21, by the transitions of PANIC_LOG and of a nested request. -/
theorem panicLogWritesTheRecord : Obligations.PanicLogWritesTheRecord := by
  unfold Obligations.PanicLogWritesTheRecord
  intro i c s hi hf
  have hbusy : isBusy s.fsm_state = true := by rw [hf]; rfl
  exact ⟨fun b bs hd ht he => (exec_eq_next_iff hi).2 (.emit b bs (.inr hf) ht he hd),
    fun b bs hd ht he => (exec_eq_next_iff hi).2 (.emitError b bs (.inr hf) ht he hd),
    fun hd ht => (exec_eq_next_iff hi).2 (.panicEnd hf ht hd),
    fun ht => (exec_eq_next_iff hi).2 (.nested hbusy ht)⟩

/-- Settles O19: each operation makes the end of LOG of its class. -/
theorem logEndDoesTheClassAction : Obligations.LogEndDoesTheClassAction := by
  unfold Obligations.LogEndDoesTheClassAction
  intro s hf hd ht
  have hend (i : Instr) (c : TrapClass) (hi : opClass i = some c) := (exec_eq_next_iff hi).2 (.logEnd hf ht hd)
  exact ⟨fun u => hend (.swi u) .swi rfl, fun u => hend (.ext u) .ext rfl, fun u => hend (.timer u) .timer rfl,
    fun u => hend (.ecallU u) .ecallU rfl, fun u => hend (.ecallS u) .ecallS rfl, fun u => hend (.ipf u) .ipf rfl,
    fun u => hend (.lpf u) .lpf rfl, fun u => hend (.spf u) .spf rfl⟩

/-! ## TIMER_READ, TIMER_WRITE and HALT_WRITE -/

/-- Settles O23, by the transitions of TIMER's two bus states. -/
theorem timerReadsTheCounterThenRearms : Obligations.TimerReadsTheCounterThenRearms := by
  unfold Obligations.TimerReadsTheCounterThenRearms
  have htimer {u : BitVec 51} {s t : State} : exec (.timer u) s = .next t ↔ Transition .timer s t := exec_eq_next_iff rfl
  exact ⟨tick_toNat, fun u s ht he => ⟨fun hf => htimer.2 (.readTime hf ht he), fun hf => htimer.2 (.rearm hf ht he)⟩⟩

/-- Settles O25: the deadline written is the sum modulo 2^64. -/
theorem wrappedDeadlineLiesBelowTheCounter : Obligations.WrappedDeadlineLiesBelowTheCounter := by
  unfold Obligations.WrappedDeadlineLiesBelowTheCounter
  intro u s t hf ht he hexec
  have htimer {t : State} : exec (.timer u) s = .next t ↔ Transition .timer s t := exec_eq_next_iff rfl
  cases (htimer.2 (.rearm hf ht he)).symm.trans hexec
  have hsum : (s.now_q + tick).toNat = (s.now_q.toNat + 10000000) % 2 ^ 64 := by rw [BitVec.toNat_add, tick_toNat]
  have hnow := s.now_q.isLt
  rw [hsum]
  omega

theorem sizeBytes_le (z : Size) : sizeBytes z ≤ 8 := by
  cases z <;> decide

/-- Settles O27: the value written is the low bytes of `HALT_VALUE`. -/
theorem haltWriteSignalsAndHalts : Obligations.HaltWriteSignalsAndHalts := by
  unfold Obligations.HaltWriteSignalsAndHalts
  intro i c s hi hf ht
  have hwidth := sizeBytes_le s.cfg.halt_width
  refine ⟨fun he => ⟨_, (exec_eq_next_iff hi).2 (.halt hf ht he), fun k hk => ?_, fun k hk => ?_⟩,
    fun he => ⟨_, (exec_eq_next_iff hi).2 (.haltError hf ht he), rfl, rfl, rfl⟩⟩
  · simp [lowBytes_getLsbD _ _ k (by omega), hk]
  · by_cases hlt : k < 64
    · simp [lowBytes_getLsbD _ _ k hlt, Nat.not_lt.2 hk]
    · exact BitVec.getLsbD_of_ge _ _ (by omega)

end Sys2Proof.Machine
end

section
/-! PROOFS of what a cause operation leaves alone (10_state R22 to R34), of UNDEF (60_exceptions R262), and of which operation a step
runs (00_scope R9, 43_frame_accessor R193). -/

namespace Sys2Proof.Machine

/-! ## The frame of a transition, register by register -/

section
variable {c : TrapClass} {s t : State} (h : Transition c s t)
include h

theorem Transition.latched_eq (hf : s.fsm_state ≠ .idle) : latched t = latched s := by
  cases h
  case accept hidle _ _ _ => exact absurd hidle hf
  all_goals rfl

theorem Transition.decoded_eq (hf : s.fsm_state ≠ .decode) :
    t.is_async_q = s.is_async_q ∧ t.cnum_q = s.cnum_q ∧ t.class_q = s.class_q := by
  cases h
  case decode hdecode _ => exact absurd hdecode hf
  all_goals exact ⟨rfl, rfl, rfl⟩

theorem Transition.resume_q_eq (hdecode : s.fsm_state ≠ .decode) (hlog : s.fsm_state ≠ .log) :
    t.resume_q = s.resume_q := by
  cases h
  case decode hf _ => exact absurd hf hdecode
  case logEnd hf _ _ => exact absurd hf hlog
  all_goals rfl

theorem Transition.now_q_eq (hread : s.fsm_state ≠ .timerRead) : t.now_q = s.now_q := by
  cases h
  case readTime hf _ _ => exact absurd hf hread
  all_goals rfl

theorem Transition.diag_q_eq (hdecode : s.fsm_state ≠ .decode) (hlog : s.fsm_state ≠ .log)
    (hpanic : s.fsm_state ≠ .panicLog) : t.diag_q = s.diag_q := by
  cases h
  case decode hf _ => exact absurd hf hdecode
  case emit hf _ _ _ => exact absurd hf (not_or.2 ⟨hlog, hpanic⟩)
  all_goals rfl

theorem Transition.halted_q_eq (hwrite : s.fsm_state ≠ .haltWrite) : t.halted_q = s.halted_q := by
  cases h
  case halt hf _ _ => exact absurd hf hwrite
  all_goals rfl

theorem Transition.undef_eq (hundef : t.fsm_state ≠ .undef) :
    t.undef_q = s.undef_q ∧ t.undef_reason = s.undef_reason := by
  cases h
  case nested | emitError | readTimeError | rearmError | haltError => exact absurd rfl hundef
  all_goals exact ⟨rfl, rfl⟩

theorem Transition.mtimecmp_eq (hwrite : s.fsm_state ≠ .timerWrite) : t.mtimecmp = s.mtimecmp := by
  cases h
  case rearm hf _ _ => exact absurd hf hwrite
  all_goals rfl

theorem Transition.uart_tx_eq (hlog : s.fsm_state ≠ .log) (hpanic : s.fsm_state ≠ .panicLog) :
    t.uart_tx = s.uart_tx := by
  cases h
  case emit hf _ _ _ => exact absurd hf (not_or.2 ⟨hlog, hpanic⟩)
  all_goals rfl

theorem Transition.halt_seen_eq (hwrite : s.fsm_state ≠ .haltWrite) : t.halt_seen = s.halt_seen := by
  cases h
  case halt hf _ _ => exact absurd hf hwrite
  all_goals rfl

/-- What lies outside the block and is no device that it writes. -/
theorem Transition.outside_eq : t.mem = s.mem ∧ t.mtime = s.mtime ∧ t.uart_status = s.uart_status ∧
    t.uart_data = s.uart_data ∧ t.acc_answer = s.acc_answer ∧ t.cfg = s.cfg ∧ t.inputs = s.inputs ∧
    t.uncleared = s.uncleared ∧ t.draws = s.draws := by
  cases h <;> exact ⟨rfl, rfl, rfl, rfl, rfl, rfl, rfl, rfl, rfl⟩

end

/-- The states that issue a transaction (20_memory R64). -/
theorem issuesTransaction_iff {s : State} : issuesTransaction s = true ↔
    ((s.fsm_state = .log ∨ s.fsm_state = .panicLog) ∧ ∃ b bs, s.diag_q = b :: bs) ∨
    s.fsm_state = .timerRead ∨ s.fsm_state = .timerWrite ∨ s.fsm_state = .haltWrite := by
  cases hf : s.fsm_state <;> cases hd : s.diag_q <;> simp [issuesTransaction, hf, hd]

theorem Transition.bus_eq {c : TrapClass} {s t : State} (h : Transition c s t) (hissue : issuesTransaction s = false) :
    t.bus = s.bus := by
  have hquiet := mt issuesTransaction_iff.2 (Bool.eq_false_iff.1 hissue)
  cases h
  case emit b bs hf _ _ hd => exact absurd (.inl ⟨hf, b, bs, hd⟩) hquiet
  case emitError b bs hf _ _ hd => exact absurd (.inl ⟨hf, b, bs, hd⟩) hquiet
  case readTime hf _ _ => exact absurd (.inr (.inl hf)) hquiet
  case readTimeError hf _ _ => exact absurd (.inr (.inl hf)) hquiet
  case rearm hf _ _ => exact absurd (.inr (.inr (.inl hf))) hquiet
  case rearmError hf _ _ => exact absurd (.inr (.inr (.inl hf))) hquiet
  case halt hf _ _ => exact absurd (.inr (.inr (.inr hf))) hquiet
  case haltError hf _ _ => exact absurd (.inr (.inr (.inr hf))) hquiet
  all_goals rfl

/-- Settles O42: each clause is the frame of one group of registers. -/
theorem causeOperationFrame : Obligations.CauseOperationFrame := by
  unfold Obligations.CauseOperationFrame
  intro i c s t hi hexec
  have h : Transition c s t := (exec_eq_next_iff hi).1 hexec
  obtain ⟨hmem, houtside⟩ := h.outside_eq
  have hlatched (hf : s.fsm_state ≠ .idle) : _ := h.latched_eq hf
  simp only [latched, TrapRequest.mk.injEq] at hlatched
  exact ⟨hlatched, h.decoded_eq, h.resume_q_eq, h.now_q_eq, h.diag_q_eq, h.halted_q_eq, h.undef_eq, h.mtimecmp_eq,
    h.uart_tx_eq, h.halt_seen_eq, h.bus_eq, fun a => by rw [hmem], houtside⟩

/-! ## `tval_q` and `hartid_q` reach the drawn text alone -/

/-- `tval_q` and `hartid_q` given other values. -/
def setTvalHartid (v h : Word) (s : State) : State := { s with tval_q := v, hartid_q := h }

theorem signals_setTvalHartid (v h : Word) (s : State) : signals (setTvalHartid v h s) = signals s :=
  signals_congr rfl rfl rfl

/-- Outside acceptance the same transition is made whatever the two registers hold; DECODE draws another text. -/
theorem Transition.setTvalHartid {c : TrapClass} {s t : State} (tr : Transition c s t) (v h : Word)
    (hidle : s.fsm_state ≠ .idle) :
    ∃ d, Transition c (setTvalHartid v h s) { setTvalHartid v h t with diag_q := d } := by
  have hsig := signals_setTvalHartid v h s
  cases tr
  case wait hf _ => exact absurd hf hidle
  case accept hf _ _ _ => exact absurd hf hidle
  case nested hb ht => exact ⟨_, .nested hb (hsig ▸ ht)⟩
  case decode hf ht => exact ⟨_, .decode hf (hsig ▸ ht)⟩
  case emit b bs hf ht he hd => exact ⟨_, .emit b bs hf (hsig ▸ ht) (hsig ▸ he) hd⟩
  case emitError b bs hf ht he hd => exact ⟨_, .emitError b bs hf (hsig ▸ ht) (hsig ▸ he) hd⟩
  case logEnd hf ht hd => exact ⟨_, .logEnd hf (hsig ▸ ht) hd⟩
  case panicEnd hf ht hd => exact ⟨_, .panicEnd hf (hsig ▸ ht) hd⟩
  case readTime hf ht he => exact ⟨_, .readTime hf (hsig ▸ ht) (hsig ▸ he)⟩
  case readTimeError hf ht he => exact ⟨_, .readTimeError hf (hsig ▸ ht) (hsig ▸ he)⟩
  case rearm hf ht he => exact ⟨_, .rearm hf (hsig ▸ ht) (hsig ▸ he)⟩
  case rearmError hf ht he => exact ⟨_, .rearmError hf (hsig ▸ ht) (hsig ▸ he)⟩
  case resumed hf ht hr => exact ⟨_, .resumed hf (hsig ▸ ht) (hsig ▸ hr)⟩
  case resuming hf ht hr => exact ⟨_, .resuming hf (hsig ▸ ht) (hsig ▸ hr)⟩
  case halt hf ht he => exact ⟨_, .halt hf (hsig ▸ ht) (hsig ▸ he)⟩
  case haltError hf ht he => exact ⟨_, .haltError hf (hsig ▸ ht) (hsig ▸ he)⟩
  case stuck hf => exact ⟨_, .stuck hf⟩

/-- The accessor answers alike whatever the two registers hold. -/
theorem accessorRead_setTvalHartid {off : BitVec 10} {s t : State} (v h : Word) (hread : accessorRead off s = .next t) :
    accessorRead off (setTvalHartid v h s) = .next (setTvalHartid v h t) := by
  obtain ⟨r, hcheck, rfl⟩ | ⟨hcheck, hbus, rfl⟩ | ⟨w, hcheck, hbus, hmem, rfl⟩ := accessorRead_cases hread
  · exact accessorRead_fails hcheck
  · exact accessorRead_busError hcheck hbus
  · exact accessorRead_data hcheck hbus hmem

/-- Settles O44, by the kind of the operation. -/
theorem tvalAndHartidReachOnlyDiagnostics : Obligations.TvalAndHartidReachOnlyDiagnostics := by
  unfold Obligations.TvalAndHartidReachOnlyDiagnostics
  intro i s t v h hidle hexec
  obtain ⟨c, hi⟩ | ⟨off, hi⟩ := opClass_or_offset i
  · obtain ⟨d, htr⟩ := ((exec_eq_next_iff hi).1 hexec).setTvalHartid v h hidle
    exact ⟨d, (exec_eq_next_iff hi).2 htr⟩
  · rw [exec_accessor hi] at hexec
    exact ⟨t.diag_q, (exec_accessor hi _).trans (accessorRead_setTvalHartid v h hexec)⟩

/-! ## UNDEF -/

/-- An error answer is `raise Undef(BusError)` after the transaction that got it. -/
theorem exists_transition_of_busError (c : TrapClass) {s : State} (hissue : issuesTransaction s = true)
    (ht : (signals s).trap = none) (he : (signals s).bus_error = true) :
    ∃ op, answeredError op = true ∧ Transition c s (raiseUndef .busError { s with bus := s.bus ++ [op] }) := by
  obtain ⟨hf, b, bs, hd⟩ | hf | hf | hf := issuesTransaction_iff.1 hissue
  · exact ⟨_, rfl, .emitError b bs hf ht he hd⟩
  · exact ⟨_, rfl, .readTimeError hf ht he⟩
  · exact ⟨_, rfl, .rearmError hf ht he⟩
  · exact ⟨_, rfl, .haltError hf ht he⟩

/-- A state that issues no transaction, and whose frame is not live, adds nothing to the record of the bus. -/
theorem Change.bus_eq {s t : State} (h : Change s t) (hissue : issuesTransaction s = false)
    (hlive : frameLive s.fsm_state = false) : t.bus = s.bus := by
  have hquiet := mt issuesTransaction_iff.2 (Bool.eq_false_iff.1 hissue)
  have hcheck_ne (off : BitVec 10) (hcheck : frameCheck s off = none) : False :=
    Bool.eq_false_iff.1 hlive (frameCheck_eq_none_iff.1 hcheck).1
  cases h
  case emit b bs _ hf _ _ hd => exact absurd (.inl ⟨hf, b, bs, hd⟩) hquiet
  case emitError b bs _ hf _ _ hd => exact absurd (.inl ⟨hf, b, bs, hd⟩) hquiet
  case readTime hf _ _ => exact absurd (.inr (.inl hf)) hquiet
  case readTimeError hf _ _ => exact absurd (.inr (.inl hf)) hquiet
  case rearm hf _ _ => exact absurd (.inr (.inr (.inl hf))) hquiet
  case rearmError hf _ _ => exact absurd (.inr (.inr (.inl hf))) hquiet
  case halt hf _ _ => exact absurd (.inr (.inr (.inr hf))) hquiet
  case haltError hf _ _ => exact absurd (.inr (.inr (.inr hf))) hquiet
  case accError off _ _ hcheck => exact (hcheck_ne off hcheck).elim
  case accData off _ _ _ hcheck _ => exact (hcheck_ne off hcheck).elim
  all_goals rfl

/-- In UNDEF a step issues nothing. -/
theorem step_bus_of_undef {s t : State} (hstep : step s = .next t) (hf : s.fsm_state = .undef) : t.bus = s.bus := by
  obtain ⟨-, u, hchange, rfl⟩ := step_change hstep
  have hissue : issuesTransaction (beginStep s) = false := by simp [issuesTransaction, hf]
  have hlive : frameLive (beginStep s).fsm_state = false := by rw [beginStep_fsm_state, hf]; rfl
  calc (endStep u).bus = u.bus := endStep_bus u
    _ = (beginStep s).bus := hchange.bus_eq hissue hlive
    _ = s.bus := beginStep_bus s

/-- In IDLE and HALTED no transition enters UNDEF. -/
theorem Transition.not_undef {c : TrapClass} {s t : State} (h : Transition c s t)
    (hf : s.fsm_state = .idle ∨ s.fsm_state = .halted) : t.fsm_state ≠ .undef ∧ t.undef_q = s.undef_q := by
  suffices hne : t.fsm_state ≠ .undef from ⟨hne, (h.undef_eq hne).1⟩
  have hstep := h.dispatchStep_eq
  obtain hf | hf := hf
  · rw [dispatchStep_idle _ _ hf] at hstep
    obtain ⟨-, rfl⟩ | ⟨r, -, -, -, rfl⟩ := acceptRequest_cases hstep
    · rw [hf]; nofun
    · nofun
  · rw [dispatchStep_halted _ _ hf] at hstep
    cases hstep
    rw [hf]; nofun

/-- Settles O29: (1) and (2) are transitions, (3) UNDEF keeps everything but at a reset, (4) no transition of IDLE or HALTED enters
UNDEF. -/
theorem nestedRequestsAndBusErrorsEnterUndef : Obligations.NestedRequestsAndBusErrorsEnterUndef := by
  unfold Obligations.NestedRequestsAndBusErrorsEnterUndef
  refine ⟨fun i c s hi hb ht => (exec_eq_next_iff hi).2 (.nested hb ht), fun i c s hi hissue ht he => ?_,
    fun s hf => ⟨?_, ?_, fun i c hi => (exec_eq_next_iff hi).2 (.stuck (.inr hf)),
      fun t hstep hreset => ⟨step_block_of_absorbing hstep (.inr hf) hreset, step_bus_of_undef hstep hf⟩,
      fun t => step_reset_fsm_state⟩,
    fun i c s t hi hf hexec => ((exec_eq_next_iff hi).1 hexec).not_undef hf⟩
  · obtain ⟨op, hop, htr⟩ := exists_transition_of_busError c hissue ht he
    exact ⟨op, hop, (exec_eq_next_iff hi).2 htr⟩
  · simp [trap_ready_o, hf]
  · simp [resume_valid_o, hf]

/-! ## The operation a step runs -/

@[simp] theorem currentOp_beginStep (s : State) : currentOp (beginStep s) = currentOp s := by
  simp [currentOp]

/-- A step of the FSM runs its operation. -/
theorem step_of_currentOp {s : State} {i : Instr} (hwf : instanceWf s.cfg = true) (hfsm : fsmSteps s = true)
    (hop : currentOp s = some i) : step s = mapNext endStep (exec i (beginStep s)) := by
  rw [step_wf hwf, takeInput_fsm (s := beginStep s) hfsm, fsmTransition, currentOp_beginStep, hop]

/-- The operation a cause word decodes to, by its row. -/
theorem decodeTableWord_word {w : Word} {i : Instr} (h : decodeTableWord 64 w.toNat = some i) : decodeCause w = i := by
  rw [decodeTableWord_cause, BitVec.ofNat_toNat, BitVec.setWidth_eq] at h
  exact Option.some.inj h

/-- The operation an offset decodes to, by its row. -/
theorem offset?_of_decodeTableWord {off : BitVec 10} {i : Instr} (h : decodeTableWord 16 off.toNat = some i) :
    i.offset? = some off := by
  rw [decodeTableWord_offset] at h
  cases hoff : decodeOffset off with
  | error r => rw [hoff] at h; cases h
  | ok j =>
    rw [hoff] at h
    cases h
    exact offset_of_decodeOffset hoff

/-- Settles O8: each source of the operation is a branch of `currentOp`, or the accessor's offset. -/
theorem stepRunsTheDecodedOperation : Obligations.StepRunsTheDecodedOperation := by
  unfold Obligations.StepRunsTheDecodedOperation
  refine ⟨fun s => ⟨rfl, rfl, rfl, rfl, rfl⟩, fun s sig rest r i hwf hf hi ht hdecode => ?_,
    fun s i hwf hf hfsm hdecode => ?_, fun s hwf hbusy hne hfsm => ?_, fun s off e rest i hwf hi hdecode => ?_⟩
  · refine step_of_currentOp hwf (by simp [fsmSteps, hi]) ?_
    simp [currentOp, hf, signals, hi, ht, decodeTableWord_word hdecode]
  · refine step_of_currentOp hwf hfsm ?_
    simp [currentOp, hf, decodeTableWord_word hdecode]
  · refine step_of_currentOp hwf hfsm ?_
    cases hf : s.fsm_state <;> simp [hf, isBusy] at hbusy hne <;> simp [currentOp, hf]
  · rw [step_read hwf hi, exec_accessor (offset?_of_decodeTableWord hdecode)]

/-! ## Ill-formed instances -/

/-- Regions that share an address are not disjoint. -/
theorem Region.not_disjoint_of_holds {r q : Region} {a : Nat} (hr : r.holds a = true) (hq : q.holds a = true) :
    ¬ r.disjoint q = true := by
  simp only [Region.holds, Bool.and_eq_true, decide_eq_true_eq] at hr hq
  rw [Region.disjoint_iff]
  omega

/-- Settles O9: each breach fails one conjunct of `instanceWf`. -/
theorem illFormedInstanceIsNotBuilt : Obligations.IllFormedInstanceIsNotBuilt := by
  unfold Obligations.IllFormedInstanceIsNotBuilt
  intro p hbreach
  have hwf : instanceWf p = false := by
    refine Bool.eq_false_iff.2 fun hwf => ?_
    simp only [instanceWf, addressesAligned, regionsDisjoint, Bool.and_eq_true, decide_eq_true_eq] at hwf
    obtain ⟨⟨⟨⟨⟨hmtime, hmtimecmp⟩, hhalt⟩, ⟨⟨⟨⟨d1, d2⟩, d3⟩, d4⟩, d5⟩, d6⟩, -⟩, -⟩ := hwf
    obtain h | h | h | ⟨a, hr, hq⟩ | ⟨a, hr, hq⟩ | ⟨a, hr, hq⟩ | ⟨a, hr, hq⟩ | ⟨a, hr, hq⟩ | ⟨a, hr, hq⟩ := hbreach
    · exact h hmtime
    · exact h hmtimecmp
    · exact h hhalt
    · exact Region.not_disjoint_of_holds hr hq d1
    · exact Region.not_disjoint_of_holds hr hq d2
    · exact Region.not_disjoint_of_holds hr hq d3
    · exact Region.not_disjoint_of_holds hr hq d4
    · exact Region.not_disjoint_of_holds hr hq d5
    · exact Region.not_disjoint_of_holds hr hq d6
  exact ⟨by rw [buildInstance, hwf]; rfl, fun s hs => step_illFormed (hs ▸ hwf)⟩

end Sys2Proof.Machine
end

section
/-! PROOFS of the devices: each byte and each write of the block reaches its device exactly once (20_memory R66, R71), every access is
aligned (R63), the compare register is written in TIMER_WRITE alone (41_async_dispatch R147), and what stores from
outside do (20_memory R66, 60_exceptions R250). -/

namespace Sys2Proof.Machine

/-! ## The platform's changes leave the block, its record and what the devices received alone -/

@[simp] theorem platformTime_bus (now : Word) (s : State) : (platformTime now s).bus = s.bus := rfl
@[simp] theorem platformReceive_bus (st d : Byte) (s : State) : (platformReceive st d s).bus = s.bus := rfl
@[simp] theorem platformPend_bus (o : Option TrapRequest) (s : State) : (platformPend o s).bus = s.bus := rfl
@[simp] theorem platformTime_diag_q (now : Word) (s : State) : (platformTime now s).diag_q = s.diag_q := rfl
@[simp] theorem platformReceive_diag_q (st d : Byte) (s : State) : (platformReceive st d s).diag_q = s.diag_q := rfl
@[simp] theorem platformPend_diag_q (o : Option TrapRequest) (s : State) : (platformPend o s).diag_q = s.diag_q := rfl
@[simp] theorem platformTime_uart_tx (now : Word) (s : State) : (platformTime now s).uart_tx = s.uart_tx := rfl
@[simp] theorem platformReceive_uart_tx (st d : Byte) (s : State) : (platformReceive st d s).uart_tx = s.uart_tx := rfl
@[simp] theorem platformPend_uart_tx (o : Option TrapRequest) (s : State) : (platformPend o s).uart_tx = s.uart_tx := rfl
@[simp] theorem platformTime_halt_seen (now : Word) (s : State) : (platformTime now s).halt_seen = s.halt_seen := rfl
@[simp] theorem platformReceive_halt_seen (st d : Byte) (s : State) : (platformReceive st d s).halt_seen = s.halt_seen := rfl
@[simp] theorem platformPend_halt_seen (o : Option TrapRequest) (s : State) : (platformPend o s).halt_seen = s.halt_seen := rfl

/-! ## The record of the bus and the devices -/

/-- In LOG and PANIC_LOG every change but a reset conserves the bytes written, then those left. -/
theorem Change.text_conserved {s t : State} (h : Change s t) (hf : s.fsm_state = .log ∨ s.fsm_state = .panicLog)
    (hreset : s.inputs.head? ≠ some .reset) : uartWritten t ++ t.diag_q = uartWritten s ++ s.diag_q := by
  have hdecode : s.fsm_state ≠ .decode := by obtain hf | hf := hf <;> rw [hf] <;> nofun
  cases h
  case decodeLog hd _ _ => exact absurd hd hdecode
  case decodePanic hd _ _ => exact absurd hd hdecode
  case reset rest hi => exact absurd (by rw [hi]; rfl) hreset
  case emit b bs _ _ _ _ hd => simp [uartWritten, uartOp, transmitted, hd]
  all_goals simp [uartWritten, transmitted]

/-- A change writes nothing to the channel, or the head byte of `diag_q` in LOG or PANIC_LOG. -/
theorem Change.uartWritten_cases {s t : State} (h : Change s t) :
    uartWritten t = uartWritten s ∨
      (s.fsm_state = .log ∨ s.fsm_state = .panicLog) ∧ ∃ b, s.diag_q = b :: t.diag_q ∧
        uartWritten t = uartWritten s ++ [b] ∧ t.bus = s.bus ++ [uartOp s.cfg b] := by
  cases h
  case emit b bs _ hf _ _ hd => exact .inr ⟨hf, b, hd, by simp [uartWritten, uartOp, transmitted], rfl⟩
  all_goals exact .inl (by simp [uartWritten, transmitted])

/-- Settles O22, by the changes that write to the channel or to `diag_q`. -/
theorem diagnosticBytesAreWrittenOnceInOrder : Obligations.DiagnosticBytesAreWrittenOnceInOrder := by
  unfold Obligations.DiagnosticBytesAreWrittenOnceInOrder
  intro s t hstep
  obtain ⟨-, u, hchange, rfl⟩ := step_change hstep
  refine ⟨fun hf hreset _ => hchange.text_conserved hf hreset, fun hlog hpanic => ?_, ?_⟩
  · obtain hsame | ⟨hf, -⟩ := hchange.uartWritten_cases
    · exact hsame
    · exact absurd hf (not_or.2 ⟨hlog, hpanic⟩)
  · obtain hsame | ⟨-, hbyte⟩ := hchange.uartWritten_cases
    · exact .inl hsame
    · exact .inr hbyte

/-- What the record gained is what the two devices took. -/
theorem Change.devices_take {s t : State} (h : Change s t)
    (hstore : ∀ who addr size v, s.inputs.head? ≠ some (.store who addr size v)) :
    t.uart_tx = s.uart_tx ++ (t.bus.drop s.bus.length).filterMap transmitted ∧
    t.halt_seen = s.halt_seen ++ (t.bus.drop s.bus.length).filterMap signalled := by
  cases h
  case storeUart who v rest hi _ => exact absurd (by rw [hi]; rfl) (hstore who _ _ v)
  case storeHalt who v rest hi _ => exact absurd (by rw [hi]; rfl) (hstore who _ _ v)
  case emit => simp [uartOp, transmitted, signalled]
  all_goals simp [transmitted, signalled]

/-- Settles O40, by the changes that write to the channel or to the halt device. -/
theorem devicesReceiveEachWriteOnce : Obligations.DevicesReceiveEachWriteOnce := by
  unfold Obligations.DevicesReceiveEachWriteOnce
  intro s t hstep hstore
  obtain ⟨-, u, hchange, rfl⟩ := step_change hstep
  exact hchange.devices_take hstore

/-- What an instance's alignment asks (20_memory R63). -/
theorem aligned_of_instanceWf {p : Params} (h : instanceWf p = true) : p.mtime_addr.toNat % 8 = 0 ∧
    p.mtimecmp_addr.toNat % 8 = 0 ∧ p.halt_addr.toNat % sizeBytes p.halt_width = 0 := by
  simp only [instanceWf, addressesAligned, Bool.and_eq_true, decide_eq_true_eq] at h
  obtain ⟨⟨⟨⟨⟨hmtime, hmtimecmp⟩, hhalt⟩, -⟩, -⟩, -⟩ := h
  exact ⟨hmtime, hmtimecmp, hhalt⟩

/-- A field of a frame that passes the checks is aligned. -/
theorem fieldAddr_aligned {s : State} {off : BitVec 10} (hcheck : frameCheck s off = none) :
    (fieldAddr s.frame_q off).toNat % 8 = 0 := by
  obtain ⟨-, ⟨hmul, hlt⟩, hal, hfits⟩ := frameCheck_eq_none_iff.1 hcheck
  have haddr := fieldAddr_add_toNat hmul hlt hfits (k := 0) (by decide)
  rw [BitVec.add_zero] at haddr
  rw [haddr]
  omega

/-- The transaction of a change in a well-formed instance is aligned. -/
theorem Change.bus_aligned {s t : State} (h : Change s t) (hwf : instanceWf s.cfg = true) :
    t.bus = s.bus ∨ ∃ op, t.bus = s.bus ++ [op] ∧ opAligned op := by
  obtain ⟨hmtime, hmtimecmp, hhalt⟩ := aligned_of_instanceWf hwf
  cases h
  case emit | emitError => exact .inr ⟨_, rfl, Nat.mod_one _⟩
  case readTime | readTimeError => exact .inr ⟨_, rfl, hmtime⟩
  case rearm | rearmError => exact .inr ⟨_, rfl, hmtimecmp⟩
  case halt | haltError => exact .inr ⟨_, rfl, hhalt⟩
  case accError hcheck => exact .inr ⟨_, rfl, fieldAddr_aligned hcheck⟩
  case accData hcheck _ => exact .inr ⟨_, rfl, fieldAddr_aligned hcheck⟩
  all_goals exact .inl rfl

/-- Settles O39, by the address of each transaction. -/
theorem everyTransactionIsAligned : Obligations.EveryTransactionIsAligned := by
  unfold Obligations.EveryTransactionIsAligned
  intro s t hstep
  obtain ⟨hwf, u, hchange, rfl⟩ := step_change hstep
  exact hchange.bus_aligned hwf

/-! ## The compare register -/

/-- Of the changes, TIMER_WRITE's and the writes from outside alone write the compare register. -/
theorem Change.compare_cases {s t : State} (h : Change s t) (hcompare : ∀ who d, s.inputs.head? ≠ some (.compare who d))
    (hstore : ∀ who v, s.inputs.head? ≠ some (.store who s.cfg.mtimecmp_addr .b8 v)) :
    (t.mtimecmp = s.mtimecmp ∧ ∀ addr n v, BusOp.write .mtimecmp addr n v ∉ t.bus.drop s.bus.length) ∨
    (s.fsm_state = .timerWrite ∧ fsmSteps s = true ∧ t.fsm_state = .resume ∧ t.mtimecmp = s.now_q + tick ∧
      t.bus = s.bus ++ [.write .mtimecmp s.cfg.mtimecmp_addr 8 (s.now_q + tick)]) := by
  cases h
  case rearm hfsm hf _ _ => exact .inr ⟨hf, hfsm, rfl, rfl, rfl⟩
  case compare who d rest hi _ => exact absurd (by rw [hi]; rfl) (hcompare who d)
  case storeCompare who v rest hi _ => exact absurd (by rw [hi]; rfl) (hstore who v)
  case emit => exact .inl ⟨rfl, by simp [uartOp]⟩
  all_goals exact .inl ⟨rfl, by simp⟩

/-- A TIMER trap enters RESUME by the compare write: at the end of LOG its class goes to TIMER_READ. -/
theorem Change.resume_of_timer {s t : State} (h : Change s t) (hc : s.class_q = .timer) (hs : s.fsm_state ≠ .resume)
    (ht : t.fsm_state = .resume) : s.fsm_state = .timerWrite ∧ t.mtimecmp = s.now_q + tick := by
  cases h
  case rearm hf _ _ => exact ⟨hf, rfl⟩
  case logSkip hskip => rw [hc] at hskip; cases hskip
  case logKeep hn => exact absurd hc hn
  case wait | emit | resuming | stuck | accCheck | accError | accData => exact absurd ht hs
  case time | compare | receive | pend | storeUart | storeCompare | storeHalt | store => exact absurd ht hs
  all_goals cases ht

/-- In the busy states after DECODE a step makes the transition of `class_q`. -/
theorem step_busy {s t : State} (hwf : instanceWf s.cfg = true) (hfsm : fsmSteps s = true)
    (hb : isBusy s.fsm_state = true) (hne : s.fsm_state ≠ .decode) (h : Transition s.class_q (beginStep s) t) :
    step s = .next (endStep t) := by
  have hop : currentOp s = some (Instr.ofClass s.class_q s.cause_q) := by
    cases hf : s.fsm_state <;> simp [hf, isBusy] at hb hne <;> simp [currentOp, hf]
  rw [step_of_currentOp hwf hfsm hop, (exec_eq_next_iff (opClass_ofClass _ _)).2 h, mapNext]

/-- Settles O24, by the changes that write the compare register or enter RESUME. -/
theorem onlyTimerWriteWritesTheCompareRegister : Obligations.OnlyTimerWriteWritesTheCompareRegister := by
  unfold Obligations.OnlyTimerWriteWritesTheCompareRegister
  refine ⟨tick_toNat, fun s t hstep hcompare hstore => ?_, fun s t hstep hc hs ht => ?_, fun s hwf hf hfsm ht he => ?_⟩
  · obtain ⟨-, u, hchange, rfl⟩ := step_change hstep
    exact hchange.compare_cases hcompare hstore
  · obtain ⟨-, u, hchange, rfl⟩ := step_change hstep
    exact hchange.resume_of_timer hc hs ht
  · refine ⟨_, step_busy hwf hfsm (hf ▸ rfl) (hf ▸ nofun) (.rearm hf ?_ ?_), rfl⟩
    · rw [signals_beginStep, ht]
    · rw [signals_beginStep, he]

/-! ## Stores from outside -/

theorem hartBreaksBusy_iff {who : Agent} {s : State} :
    hartBreaksBusy who s = true ↔ who = .hart ∧ isBusy s.fsm_state = true := by
  simp [hartBreaksBusy]

theorem outsideStore_busy {who : Agent} {addr : Word} {size : Size} {v : Word} {s : State}
    (hb : hartBreaksBusy who s = true) : outsideStore who addr size v s = .refused .hartAccessWhileBusy := by
  rw [outsideStore, if_pos hb]

/-- A device write from outside has the device's effect. -/
theorem outsideStore_device {who : Agent} {addr : Word} {size : Size} {d : Target} {v : Word} {s : State}
    (hb : hartBreaksBusy who s = false) (hd : deviceWriteAt s.cfg addr size = some d) :
    outsideStore who addr size v s = .next (deviceWrite d (lowBytes (sizeBytes size) v) s) := by
  simp only [outsideStore, hb, hd, Bool.false_eq_true, if_false]

/-- A store from outside that is no device write, of a hart that may make it, by what it touches. -/
theorem outsideStore_memory {who : Agent} {addr : Word} {size : Size} {v : Word} {s : State}
    (hb : hartBreaksBusy who s = false) (hd : deviceWriteAt s.cfg addr size = none) :
    outsideStore who addr size v s =
      if (deviceRegions s.cfg).any (fun r => touches r addr (sizeBytes size)) then .refused .outsideStoreToDevice
      else if frameLive s.fsm_state && touches (frameRegion s.frame_q) addr (sizeBytes size) then
        .refused .storeIntoLiveFrame
      else .next { s with mem := memWrite s.mem addr (sizeBytes size) v } := by
  simp only [outsideStore, hb, hd, Bool.false_eq_true, if_false]

theorem step_store {s : State} {who : Agent} {addr : Word} {size : Size} {v : Word} {rest : List Input}
    (hwf : instanceWf s.cfg = true) (hi : s.inputs = .store who addr size v :: rest) :
    step s = mapNext endStep (outsideStore who addr size v (beginStep s)) := by
  rw [step_wf hwf, takeInput, beginStep_inputs, hi]

theorem step_compare {s : State} {who : Agent} {d : Word} {rest : List Input}
    (hwf : instanceWf s.cfg = true) (hi : s.inputs = .compare who d :: rest) :
    step s = mapNext endStep (outsideStore who s.cfg.mtimecmp_addr .b8 d (beginStep s)) := by
  rw [step_wf hwf, takeInput, beginStep_inputs, hi]
  rfl

theorem deviceWriteAt_uart (p : Params) : deviceWriteAt p p.uart_base .b1 = some .uart := by
  simp [deviceWriteAt]

/-- A value seen by the halt device is one more signal exactly when it is `HALT_VALUE`'s (20_memory R76). -/
theorem terminationSignals_of_halt_seen {s t : State} {w : Word} (hcfg : t.cfg = s.cfg)
    (hseen : t.halt_seen = s.halt_seen ++ [w]) :
    (w = lowBytes (sizeBytes s.cfg.halt_width) s.cfg.halt_value → terminationSignals t = terminationSignals s + 1) ∧
    (w ≠ lowBytes (sizeBytes s.cfg.halt_width) s.cfg.halt_value → terminationSignals t = terminationSignals s) := by
  rw [terminationSignals, terminationSignals, hcfg, hseen, List.count_append]
  exact ⟨fun h => by rw [h, List.count_singleton_self], fun h => by rw [List.count_singleton, beq_false_of_ne h]; rfl⟩

/-- Settles O47: each of the four inputs is one device write. -/
theorem outsideDeviceWritesHaveTheirEffect : Obligations.OutsideDeviceWritesHaveTheirEffect := by
  unfold Obligations.OutsideDeviceWritesHaveTheirEffect
  intro s who v rest hwf hidle
  have hb : hartBreaksBusy who (beginStep s) = false := Bool.eq_false_iff.2 (mt hartBreaksBusy_iff.1 hidle)
  have hcompare : outsideStore who s.cfg.mtimecmp_addr .b8 v (beginStep s) = .next { beginStep s with mtimecmp := v } := by
    rw [outsideStore_device hb (deviceWriteAt_compare s.cfg), lowBytes_word]
    rfl
  refine ⟨fun hi => ?_, fun hi => ?_, fun hi => ?_, fun hi => ?_⟩
  · have hlow : (lowBytes (sizeBytes .b1) v).setWidth 8 = v.setWidth 8 := by simp [lowBytes, sizeBytes]
    rw [step_store hwf hi, outsideStore_device hb (deviceWriteAt_uart s.cfg), mapNext, deviceWrite, hlow]
    rfl
  · rw [step_store hwf hi, hcompare, mapNext]
  · rw [step_compare hwf hi, hcompare, mapNext]
  · refine ⟨_, ?_, rfl, terminationSignals_of_halt_seen rfl rfl⟩
    rw [step_store hwf hi, outsideStore_device (addr := s.cfg.halt_addr) (size := s.cfg.halt_width) hb
      (deviceWriteAt_halt hwf)]
    rfl

/-- Settles O48: the branches of a store from outside, in order. -/
theorem outsideStoresKeepTheEntryContract : Obligations.OutsideStoresKeepTheEntryContract := by
  unfold Obligations.OutsideStoresKeepTheEntryContract
  intro s who addr size v rest hwf hi
  rw [step_store hwf hi]
  refine ⟨fun hhart hbusy => ?_, fun hidle hd => ?_⟩
  · rw [outsideStore_busy (s := beginStep s) (hartBreaksBusy_iff.2 ⟨hhart, hbusy⟩)]
    rfl
  · have hb : hartBreaksBusy who (beginStep s) = false := Bool.eq_false_iff.2 (mt hartBreaksBusy_iff.1 hidle)
    rw [outsideStore_memory hb hd, beginStep_cfg, beginStep_fsm_state, beginStep_frame_q, beginStep_mem]
    refine ⟨fun htouch => ?_, fun hclear => ?_⟩
    · rw [if_pos (List.any_eq_true.2 htouch)]
      rfl
    · have hany : ¬ ((deviceRegions s.cfg).any fun r => touches r addr (sizeBytes size)) = true := by
        simpa using hclear
      rw [if_neg hany]
      refine ⟨fun hlive htouch => ?_, fun hfree => ?_⟩
      · rw [if_pos (Bool.and_eq_true_iff.2 ⟨hlive, htouch⟩)]
        rfl
      · rw [if_neg (mt Bool.and_eq_true_iff.1 hfree)]
        rfl

end Sys2Proof.Machine
end

section
/-! PROOF that the sentinel is written exactly once by each run that reaches HALTED (44_diag_and_halt R224): entering HALTED and the
halt write are the same change. -/

namespace Sys2Proof.Machine

/-- A change other than a reset makes the halt write and enters HALTED, or does neither. -/
theorem Change.halt_cases {s t : State} (h : Change s t) (hreset : s.inputs.head? ≠ some .reset) :
    (s.fsm_state ≠ .halted ∧ t.fsm_state = .halted ∧ t.bus = s.bus ++ [haltOp s.cfg]) ∨
    ((t.fsm_state = .halted ↔ s.fsm_state = .halted) ∧
      ∃ ops, t.bus = s.bus ++ ops ∧ ∀ op ∈ ops, isHaltWrite op = false) := by
  have none_added : s.bus = s.bus ++ [] := (List.append_nil _).symm
  have one_added {op : BusOp} (hop : isHaltWrite op = false) : ∀ o ∈ [op], isHaltWrite o = false := by
    simpa using hop
  cases h
  case halt hf _ _ => exact .inl ⟨hf ▸ nofun, rfl, rfl⟩
  case reset rest hi => exact absurd (by rw [hi]; rfl) hreset
  case wait | resuming | stuck | accCheck => exact .inr ⟨Iff.rfl, [], none_added, nofun⟩
  case time | compare | receive | pend | storeUart | storeCompare | storeHalt | store =>
    exact .inr ⟨Iff.rfl, [], none_added, nofun⟩
  case emit | accError | accData => exact .inr ⟨Iff.rfl, [_], rfl, one_added rfl⟩
  case nested hb _ =>
    exact .inr ⟨iff_of_false nofun (beq_eq_false_iff_ne.1 (ne_halted_of_isBusy hb)), [], none_added, nofun⟩
  case emitError hf _ _ _ =>
    exact .inr ⟨iff_of_false nofun (by obtain hf | hf := hf <;> rw [hf] <;> nofun), [_], rfl, one_added rfl⟩
  case accept hf _ _ _ => exact .inr ⟨iff_of_false nofun (hf ▸ nofun), [], none_added, nofun⟩
  case decodeLog hf _ _ | decodePanic hf _ _ => exact .inr ⟨iff_of_false nofun (hf ▸ nofun), [], none_added, nofun⟩
  case logSkip hf _ _ _ | logTimer hf _ _ _ => exact .inr ⟨iff_of_false nofun (hf ▸ nofun), [], none_added, nofun⟩
  case logKeep hf _ _ _ _ => exact .inr ⟨iff_of_false nofun (hf ▸ nofun), [], none_added, nofun⟩
  case resumed hf _ _ | panicEnd hf _ _ => exact .inr ⟨iff_of_false nofun (hf ▸ nofun), [], none_added, nofun⟩
  case readTime hf _ _ | readTimeError hf _ _ => exact .inr ⟨iff_of_false nofun (hf ▸ nofun), [_], rfl, one_added rfl⟩
  case rearm hf _ _ | rearmError hf _ _ => exact .inr ⟨iff_of_false nofun (hf ▸ nofun), [_], rfl, one_added rfl⟩
  case haltError hf _ _ => exact .inr ⟨iff_of_false nofun (hf ▸ nofun), [_], rfl, one_added rfl⟩

/-- Reset and every other input are used up by the step that takes them. -/
theorem Change.inputs_eq {s t : State} (h : Change s t) : t.inputs = s.inputs := by
  cases h <;> rfl

theorem step_inputs {s t : State} (h : step s = .next t) : t.inputs = s.inputs.tail := by
  obtain ⟨-, u, hchange, rfl⟩ := step_change h
  rw [endStep_inputs, hchange.inputs_eq, beginStep_inputs]

/-- 1 in HALTED, 0 elsewhere. -/
def haltedCount (s : State) : Nat := if s.fsm_state = .halted then 1 else 0

/-- A count of transactions that takes the halt write and nothing else grows with entry to HALTED. -/
theorem step_countP_halt {s t : State} {p : BusOp → Bool} (hhalt : p (haltOp s.cfg) = true)
    (hother : ∀ op, isHaltWrite op = false → p op = false) (hstep : step s = .next t)
    (hreset : s.inputs.head? ≠ some .reset) :
    t.bus.countP p + haltedCount s = s.bus.countP p + haltedCount t := by
  obtain ⟨-, u, hchange, rfl⟩ := step_change hstep
  rw [haltedCount, haltedCount, endStep_bus, endStep_fsm_state]
  obtain ⟨hs, ht, hbus⟩ | ⟨hiff, ops, hbus, hops⟩ := hchange.halt_cases hreset
  · rw [hbus, if_neg (show s.fsm_state ≠ .halted from hs), if_pos ht, List.countP_append]
    exact congrArg (_ + ·) (List.countP_singleton.trans (if_pos hhalt))
  · have hnone : ops.countP p = 0 := List.countP_eq_zero.2 fun op hop => by simp [hother op (hops op hop)]
    simp only [hbus, List.countP_append, hnone, hiff]
    rfl

/-- The count over a run without a reset. -/
theorem run_countP_halt {p : BusOp → Bool} (hother : ∀ op, isHaltWrite op = false → p op = false) :
    ∀ (n : Nat) {s t : State}, p (haltOp s.cfg) = true → s.inputs.all (fun e => !isReset e) = true →
      Sys2Proof.core.run n s = .next t → t.bus.countP p + haltedCount s = s.bus.countP p + haltedCount t := by
  intro n
  induction n with
  | zero =>
    intro s t _ _ hrun
    cases hrun
    rfl
  | succ n ih =>
    intro s t hhalt hall hrun
    obtain ⟨u, hstep, hrest⟩ := run_succ_cases Sys2Proof.core hrun
    have hreset : s.inputs.head? ≠ some .reset := by
      intro hhead
      have h := List.all_eq_true.1 hall _ (List.mem_of_head? hhead)
      cases h
    have htail : u.inputs.all (fun e => !isReset e) = true := by
      rw [step_inputs hstep]
      exact List.all_eq_true.2 fun e he => List.all_eq_true.1 hall e (List.mem_of_mem_tail he)
    have hfirst := step_countP_halt hhalt hother hstep hreset
    have hlast := ih (by rwa [step_cfg hstep]) htail hrest
    omega

/-- Settles O56: both counts take the halt write and nothing else. -/
theorem sentinelIsWrittenExactlyOnce : Obligations.SentinelIsWrittenExactlyOnce := by
  unfold Obligations.SentinelIsWrittenExactlyOnce
  intro n s t hs hall hrun
  have hzero : haltedCount s = 0 := if_neg hs
  have hsentinel (op : BusOp) (hop : isHaltWrite op = false) : (op == haltOp s.cfg) = false := by
    refine beq_eq_false_iff_ne.2 fun heq => ?_
    rw [heq] at hop
    cases hop
  have hwrites := run_countP_halt (fun _ hop => hop) n rfl hall hrun
  have hvalues := run_countP_halt hsentinel n (beq_self_eq_true _) hall hrun
  rw [hzero] at hwrites hvalues
  exact ⟨hwrites, hvalues⟩

end Sys2Proof.Machine
end

section
/-! PROOFS of whole traps (70_reset R300): a request accepted in IDLE and left alone runs through DECODE and the bytes of its text, and
from there by its class to RESUME or to HALTED. -/

namespace Sys2Proof.Machine

/-! ## Steps that nothing disturbs -/

/-- Nothing but quiet steps is left in the queue, the instance is built, and no accessor answer stands. -/
structure Undisturbed (s : State) : Prop where
  wf : instanceWf s.cfg = true
  quiet : s.inputs.all quiet = true
  answer : s.acc_answer = none

theorem beginStep_of_no_answer {s : State} (h : s.acc_answer = none) : beginStep s = s := by
  rw [beginStep, ← h]

/-- A quiet step outside IDLE acts on the FSM with no request and a bus that answers ok, also when the queue is empty. -/
theorem signals_of_quiet {s : State} (hq : s.inputs.all quiet = true) (hidle : s.fsm_state ≠ .idle) :
    fsmSteps s = true ∧ (signals s).trap = none ∧ (signals s).bus_error = false := by
  cases hi : s.inputs with
  | nil => simp [fsmSteps, signals, pendingSignals, hi, hidle]
  | cons e rest =>
    rw [hi, List.all_cons, Bool.and_eq_true] at hq
    obtain ⟨he, -⟩ := hq
    cases e <;> simp [Machine.quiet] at he
    simp [fsmSteps, signals, hi, he]

theorem all_quiet_tail {l : List Input} (h : l.all quiet = true) : l.tail.all quiet = true :=
  List.all_eq_true.2 fun e he => List.all_eq_true.1 h e (List.mem_of_mem_tail he)

/-- What follows a transition is as undisturbed as what came before it. -/
theorem Undisturbed.endStep {s t : State} {c : TrapClass} (hu : Undisturbed s) (h : Transition c s t) :
    Undisturbed (endStep t) := by
  obtain ⟨-, -, -, -, hanswer, hcfg, hinputs, -⟩ := h.outside_eq
  refine ⟨?_, ?_, ?_⟩
  · rw [endStep_cfg, hcfg, hu.wf]
  · rw [endStep_inputs, hinputs]
    exact all_quiet_tail hu.quiet
  · rw [endStep_acc_answer, hanswer, hu.answer]

/-- An undisturbed step of a busy state after DECODE is the transition of `class_q`. -/
theorem Undisturbed.step {s t : State} (hu : Undisturbed s) (hb : isBusy s.fsm_state = true)
    (hne : s.fsm_state ≠ .decode) (h : Transition s.class_q s t) : step s = .next (Machine.endStep t) := by
  have hidle : s.fsm_state ≠ .idle := by rintro hf; rw [hf] at hb; cases hb
  obtain ⟨hfsm, -, -⟩ := signals_of_quiet hu.quiet hidle
  refine step_busy hu.wf hfsm hb hne ?_
  rwa [beginStep_of_no_answer hu.answer]

/-! ## The text, byte by byte -/

/-- The state after `k` bytes of its text. -/
def emitted (k : Nat) (s : State) : State :=
  { s with
      diag_q := s.diag_q.drop k
      uart_tx := s.uart_tx ++ s.diag_q.take k
      bus := s.bus ++ (s.diag_q.take k).map (uartOp s.cfg)
      inputs := s.inputs.drop k
      draws := s.draws + k }

theorem emitted_zero (s : State) : emitted 0 s = s := by
  simp [emitted]

/-- The first byte and then `k` more are `k + 1` bytes. -/
theorem emitted_succ {s : State} {b : Byte} {bs : List Byte} (hd : s.diag_q = b :: bs) (k : Nat) :
    emitted k (endStep { s with diag_q := bs, uart_tx := s.uart_tx ++ [b], bus := s.bus ++ [uartOp s.cfg b] }) =
      emitted (k + 1) s := by
  simp [emitted, hd, Nat.add_assoc, Nat.add_comm 1, endStep]

/-- A text runs off byte by byte. -/
theorem run_emitted (k : Nat) : ∀ {s : State}, Undisturbed s → s.fsm_state = .log ∨ s.fsm_state = .panicLog →
    k ≤ s.diag_q.length → Sys2Proof.core.run k s = .next (emitted k s) := by
  induction k with
  | zero => intro s _ _ _; rw [emitted_zero]; rfl
  | succ k ih =>
    intro s hu hf hk
    obtain ⟨b, bs, hd⟩ := List.exists_cons_of_length_pos (l := s.diag_q) (by omega)
    have hbusy : isBusy s.fsm_state = true ∧ s.fsm_state ≠ .decode ∧ s.fsm_state ≠ .idle := by
      obtain hf | hf := hf <;> rw [hf] <;> exact ⟨rfl, nofun, nofun⟩
    obtain ⟨hb, hdecode, hidle⟩ := hbusy
    obtain ⟨-, ht, he⟩ := signals_of_quiet hu.quiet hidle
    have htr : Transition s.class_q s _ := .emit b bs hf ht he hd
    rw [core_run_next (hu.step hb hdecode htr), ih (hu.endStep htr) hf, emitted_succ hd]
    rw [hd] at hk
    exact Nat.le_of_succ_le_succ hk

/-! ## From the request to the end of its text -/

/-- A request that this step accepts, and after which nothing disturbs the trap. -/
structure Presented (r : TrapRequest) (s : State) : Prop where
  wf : instanceWf s.cfg = true
  idle : s.fsm_state = .idle
  fsm : fsmSteps s = true
  trap : (signals s).trap = some r
  quiet : s.inputs.tail.all quiet = true
  clear : frameOverlapsDevice s.cfg r.frame = false
  stored : frameIsStored s.mem r.frame = true

/-- The state after acceptance. -/
def accepted (r : TrapRequest) (s : State) : State := endStep (latchRequest r (beginStep s))

/-- The state after DECODE, with the whole text to write. -/
def decoded (r : TrapRequest) (s : State) : State :=
  endStep { decodeFields (accepted r s) with
              class_q := classOfCause r.cause
              diag_q := drawnText (classOfCause r.cause) (accepted r s)
              fsm_state := textState (classOfCause r.cause) }

/-- The text of the trap. -/
def textOf (r : TrapRequest) (s : State) : List Byte := (decoded r s).diag_q

/-- The state with the text written. -/
def logged (r : TrapRequest) (s : State) : State := emitted (textOf r s).length (decoded r s)

section
variable {r : TrapRequest} {s : State} (h : Presented r s)
include h

theorem Presented.step_accepted : step s = .next (accepted r s) := by
  have hop : currentOp s = some (decodeCause r.cause) := by simp [currentOp, h.idle, h.trap]
  have htr : Transition (selectClass r.cause) (beginStep s) (latchRequest r (beginStep s)) :=
    .accept r h.idle (by rw [signals_beginStep, h.trap]) h.clear h.stored
  rw [step_of_currentOp h.wf h.fsm hop, (exec_eq_next_iff (opClass_decodeCause _)).2 htr, mapNext, accepted]

theorem Presented.undisturbed_accepted : Undisturbed (accepted r s) := ⟨h.wf, h.quiet, rfl⟩

theorem Presented.step_decoded : step (accepted r s) = .next (decoded r s) := by
  obtain ⟨hfsm, ht, -⟩ := signals_of_quiet (s := accepted r s) h.quiet nofun
  rw [step_decode (s := accepted r s) h.wf rfl hfsm ht, atDecode_eq_drawn]
  rfl

theorem Presented.undisturbed_decoded : Undisturbed (decoded r s) := by
  obtain ⟨-, ht, -⟩ := signals_of_quiet (s := accepted r s) h.quiet nofun
  have htr : Transition (classOfCause r.cause) (accepted r s) _ := .decode rfl ht
  exact h.undisturbed_accepted.endStep htr

theorem Presented.run_text (k : Nat) (hk : k ≤ (textOf r s).length) :
    Sys2Proof.core.run (2 + k) s = .next (emitted k (decoded r s)) := by
  rw [Nat.add_comm, core_run_next h.step_accepted, core_run_next h.step_decoded,
    run_emitted k h.undisturbed_decoded (textState_cases _) hk]

/-- The state with the text written is reached after 2 steps and one for each byte. -/
theorem Presented.run_logged (k : Nat) :
    Sys2Proof.core.run (2 + (textOf r s).length + k) s = Sys2Proof.core.run k (logged r s) :=
  run_add Sys2Proof.core (h.run_text _ le_rfl)

theorem Presented.undisturbed_logged : Undisturbed (logged r s) :=
  ⟨h.wf, List.all_eq_true.2 fun e he => List.all_eq_true.1 h.undisturbed_decoded.quiet e (List.mem_of_mem_drop he), rfl⟩

/-- Up to the last byte of the text the trap is in IDLE, in DECODE or in the state that writes it, and what lies outside the text and
the latched request stays. -/
theorem Presented.run_before (k : Nat) (hk : k ≤ 2 + (textOf r s).length) :
    ∃ u : State, Sys2Proof.core.run k s = .next u ∧
      u.fsm_state ∈ [FsmState.idle, .decode, textState (classOfCause r.cause)] ∧
      u.halted_q = s.halted_q ∧ u.undef_q = s.undef_q ∧ u.uncleared = s.uncleared := by
  match k with
  | 0 => exact ⟨s, rfl, by simp [h.idle], rfl, rfl, rfl⟩
  | 1 => exact ⟨accepted r s, core_run_next h.step_accepted, by simp [accepted], rfl, rfl, rfl⟩
  | k + 2 =>
    refine ⟨emitted k (decoded r s), ?_, by simp [emitted, decoded], rfl, rfl, rfl⟩
    rw [Nat.add_comm, h.run_text k (by omega)]

end

/-! ## The state with the text written -/

theorem logged_diag_q (r : TrapRequest) (s : State) : (logged r s).diag_q = [] :=
  List.drop_eq_nil_of_le le_rfl

theorem logged_uart_tx (r : TrapRequest) (s : State) : (logged r s).uart_tx = s.uart_tx ++ textOf r s :=
  congrArg (s.uart_tx ++ ·) (List.take_of_length_le le_rfl)

theorem logged_bus (r : TrapRequest) (s : State) : (logged r s).bus = s.bus ++ (textOf r s).map (uartOp s.cfg) :=
  congrArg (fun l : List Byte => s.bus ++ l.map (uartOp s.cfg)) (List.take_of_length_le le_rfl)

/-- The state after the end of LOG. -/
def logEnded (r : TrapRequest) (s : State) : State :=
  endStep { logged r s with resume_q := logEndResume (classOfCause r.cause) r.epc
                            fsm_state := logEndState (classOfCause r.cause) }

/-- With its text written, a recoverable trap ends LOG by its class. -/
theorem Presented.step_logEnded {r : TrapRequest} {s : State} (h : Presented r s)
    (htier : tier (classOfCause r.cause) = .recoverable) :
    step (logged r s) = .next (logEnded r s) ∧ Undisturbed (logEnded r s) := by
  have hf : (logged r s).fsm_state = .log := textState_recoverable htier
  obtain ⟨-, ht, -⟩ := signals_of_quiet h.undisturbed_logged.quiet (hf ▸ nofun)
  have htr : Transition (logged r s).class_q (logged r s) _ := .logEnd hf ht (logged_diag_q r s)
  exact ⟨h.undisturbed_logged.step (hf ▸ rfl) (hf ▸ nofun) htr, h.undisturbed_logged.endStep htr⟩

/-- A recoverable trap leaves LOG after 3 + d steps. -/
theorem Presented.run_logEnded {r : TrapRequest} {s : State} (h : Presented r s)
    (htier : tier (classOfCause r.cause) = .recoverable) (k : Nat) :
    Sys2Proof.core.run (3 + (textOf r s).length + k) s = Sys2Proof.core.run k (logEnded r s) := by
  obtain ⟨hstep, -⟩ := h.step_logEnded htier
  rw [show 3 + (textOf r s).length + k = 2 + (textOf r s).length + (k + 1) by omega, h.run_logged, core_run_next hstep]

end Sys2Proof.Machine
end

section
/-! PROOFS of the whole traps of 70_reset R300 to RESUME and to HALTED, and of the endless re-trap of R290. -/

namespace Sys2Proof.Machine

/-! ## The statements' premises -/

/-- A `tick` that presents a request, with quiet inputs behind it. -/
theorem presented_of_tick {s : State} {sig : Signals} {rest : List Input} {r : TrapRequest}
    (hwf : instanceWf s.cfg = true) (hf : s.fsm_state = .idle) (hi : s.inputs = .tick sig :: rest)
    (ht : sig.trap = some r) (hq : rest.all quiet = true) (hclear : frameOverlapsDevice s.cfg r.frame = false)
    (hstored : frameIsStored s.mem r.frame = true) : Presented r s where
  wf := hwf
  idle := hf
  fsm := by simp [fsmSteps, hi]
  trap := by simp [signals, hi, ht]
  quiet := by rw [hi]; exact hq
  clear := hclear
  stored := hstored

theorem textOf_recoverable {r : TrapRequest} (s : State) (htier : tier (classOfCause r.cause) = .recoverable) :
    textOf r s = Config.diagBytes (s.draws + 1) (classOfCause r.cause) r.epc r.tval r.cause r.hartid :=
  drawnText_recoverable htier (accepted r s)

theorem textOf_fatal {r : TrapRequest} (s : State) (htier : tier (classOfCause r.cause) = .fatal) :
    textOf r s = Config.panicBytes (s.draws + 1) (classOfCause r.cause) r.epc r.tval r.cause r.hartid :=
  drawnText_fatal htier (accepted r s)

/-- A trap whose text is not yet written is in neither of the two states where traps end. -/
theorem Presented.run_before_ne {r : TrapRequest} {s : State} (h : Presented r s) {k : Nat}
    (hk : k ≤ 2 + (textOf r s).length) :
    ∃ u : State, Sys2Proof.core.run k s = .next u ∧ u.fsm_state ≠ .halted ∧ u.fsm_state ≠ .resume := by
  obtain ⟨u, hrun, hf, -⟩ := h.run_before k hk
  refine ⟨u, hrun, ?_⟩
  simp only [List.mem_cons, List.not_mem_nil, or_false] at hf
  obtain hf | hf | hf := hf
  · rw [hf]; exact ⟨nofun, nofun⟩
  · rw [hf]; exact ⟨nofun, nofun⟩
  · obtain htext | htext := textState_cases (classOfCause r.cause) <;> rw [hf, htext] <;> exact ⟨nofun, nofun⟩

/-! ## SWI, EXT and the skipping classes -/

theorem tier_of_mem_seven : ∀ c ∈ [TrapClass.swi, .ext, .ecallU, .ecallS, .ipf, .lpf, .spf],
    tier c = .recoverable ∧ logEndState c = .resume := by decide

/-- Of the recoverable classes but TIMER, SWI and EXT keep the interrupted address and the others add 4 (30_encoding R105). -/
theorem skips_of_mem_seven : ∀ c ∈ [TrapClass.swi, .ext, .ecallU, .ecallS, .ipf, .lpf, .spf],
    (c ∈ [TrapClass.swi, .ext] → skips c = false) ∧ (c ∉ [TrapClass.swi, .ext] → skips c = true) := by decide

theorem logEndResume_keep {c : TrapClass} (h : skips c = false) (a : Word) : logEndResume c a = a := by
  simp [logEndResume, h]

theorem logEndResume_skip {c : TrapClass} (h : skips c = true) (a : Word) : logEndResume c a = a + 4 := by
  rw [logEndResume, if_pos h]
  rfl

/-- Settles O53: acceptance, DECODE, the bytes of the message and the end of LOG. -/
theorem recoverableTrapReachesResume : Obligations.RecoverableTrapReachesResume := by
  unfold Obligations.RecoverableTrapReachesResume
  intro s sig rest r hwf hf hi ht hq hclear hstored hc msg
  have h : Presented r s := presented_of_tick hwf hf hi ht hq hclear hstored
  obtain ⟨htier, hend⟩ := tier_of_mem_seven _ hc
  obtain ⟨hkeep, hskip⟩ := skips_of_mem_seven _ hc
  have hmsg : textOf r s = msg := textOf_recoverable s htier
  rw [← hmsg]
  refine ⟨fun k hk => ?_, logEnded r s, h.run_logEnded htier 0, hend, rfl, rfl, rfl, fun hclass => ?_, fun hclass => ?_,
    logged_bus r s, logged_uart_tx r s, rfl, rfl, rfl, rfl, rfl⟩
  · obtain ⟨u, hrun, -, hne⟩ := h.run_before_ne (k := k) (by omega)
    exact ⟨u, hrun, hne⟩
  · exact logEndResume_keep (hkeep hclass) r.epc
  · exact logEndResume_skip (hskip hclass) r.epc

/-! ## TIMER -/

/-- The state after TIMER_READ of a timer trap. -/
def timeRead (s : State) : State :=
  endStep { s with now_q := s.mtime, fsm_state := .timerWrite,
                   bus := s.bus ++ [.read .mtime s.cfg.mtime_addr 8 s.mtime] }

/-- The state after TIMER_WRITE. -/
def rearmed (s : State) : State :=
  endStep { s with mtimecmp := s.now_q + tick, fsm_state := .resume,
                   bus := s.bus ++ [.write .mtimecmp s.cfg.mtimecmp_addr 8 (s.now_q + tick)] }

theorem Undisturbed.step_timeRead {s : State} (hu : Undisturbed s) (hf : s.fsm_state = .timerRead) :
    Machine.step s = .next (timeRead s) ∧ Undisturbed (timeRead s) := by
  obtain ⟨-, ht, he⟩ := signals_of_quiet hu.quiet (hf ▸ nofun)
  have htr : Transition s.class_q s _ := .readTime hf ht he
  exact ⟨hu.step (hf ▸ rfl) (hf ▸ nofun) htr, hu.endStep htr⟩

theorem Undisturbed.step_rearmed {s : State} (hu : Undisturbed s) (hf : s.fsm_state = .timerWrite) :
    Machine.step s = .next (rearmed s) := by
  obtain ⟨-, ht, he⟩ := signals_of_quiet hu.quiet (hf ▸ nofun)
  exact hu.step (hf ▸ rfl) (hf ▸ nofun) (.rearm hf ht he)

/-- Settles O54: as for the other recoverable classes, then the read and the write of TIMER. -/
theorem timerTrapReachesResume : Obligations.TimerTrapReachesResume := by
  unfold Obligations.TimerTrapReachesResume
  intro s sig rest r hwf hf hi ht hq hclear hstored hc msg
  have h : Presented r s := presented_of_tick hwf hf hi ht hq hclear hstored
  have htier : tier (classOfCause r.cause) = .recoverable := by rw [hc]; rfl
  have hmsg : textOf r s = msg := by rw [textOf_recoverable s htier, hc]
  have hread : (logEnded r s).fsm_state = .timerRead := if_pos hc
  obtain ⟨-, hu⟩ := h.step_logEnded htier
  obtain ⟨hstep1, hu1⟩ := hu.step_timeRead hread
  have hstep2 := hu1.step_rearmed rfl
  have hbus : (rearmed (timeRead (logEnded r s))).bus = s.bus ++ (textOf r s).map (uartOp s.cfg) ++
      [.read .mtime s.cfg.mtime_addr 8 s.mtime, .write .mtimecmp s.cfg.mtimecmp_addr 8 (s.mtime + tick)] := by
    rw [← logged_bus r s]
    exact List.append_assoc _ _ _
  rw [← hmsg]
  refine ⟨tick_toNat, fun k hk => ?_, rearmed (timeRead (logEnded r s)), ?_, rfl, ?_, rfl, rfl, hbus, logged_uart_tx r s,
    rfl, rfl, rfl, rfl⟩
  · obtain hk | rfl | rfl : k ≤ 2 + (textOf r s).length ∨ k = 3 + (textOf r s).length + 0 ∨
        k = 3 + (textOf r s).length + 1 := by omega
    · obtain ⟨u, hrun, -, hne⟩ := h.run_before_ne hk
      exact ⟨u, hrun, hne⟩
    · exact ⟨logEnded r s, h.run_logEnded htier 0, hread ▸ nofun⟩
    · exact ⟨timeRead (logEnded r s), (h.run_logEnded htier 1).trans (core_run_next hstep1), nofun⟩
  · rw [show 5 + (textOf r s).length = 3 + (textOf r s).length + 2 by omega, h.run_logEnded htier, core_run_next hstep1,
      core_run_next hstep2]
    rfl
  · exact logEndResume_keep (hc ▸ rfl) r.epc

/-! ## The fatal classes -/

/-- The state after the end of PANIC_LOG. -/
def panicEnded (s : State) : State := endStep (goto .haltWrite s)

/-- The state after HALT_WRITE. -/
def haltWritten (s : State) : State :=
  endStep { s with halted_q := true, fsm_state := .halted,
                   halt_seen := s.halt_seen ++ [lowBytes (sizeBytes s.cfg.halt_width) s.cfg.halt_value],
                   bus := s.bus ++ [haltOp s.cfg] }

theorem Undisturbed.step_panicEnded {s : State} (hu : Undisturbed s) (hf : s.fsm_state = .panicLog)
    (hd : s.diag_q = []) : Machine.step s = .next (panicEnded s) ∧ Undisturbed (panicEnded s) := by
  obtain ⟨-, ht, -⟩ := signals_of_quiet hu.quiet (hf ▸ nofun)
  have htr : Transition s.class_q s _ := .panicEnd hf ht hd
  exact ⟨hu.step (hf ▸ rfl) (hf ▸ nofun) htr, hu.endStep htr⟩

theorem Undisturbed.step_haltWritten {s : State} (hu : Undisturbed s) (hf : s.fsm_state = .haltWrite) :
    Machine.step s = .next (haltWritten s) := by
  obtain ⟨-, ht, he⟩ := signals_of_quiet hu.quiet (hf ▸ nofun)
  exact hu.step (hf ▸ rfl) (hf ▸ nofun) (.halt hf ht he)

/-- Settles O55: acceptance, DECODE, the bytes of the panic record, its end and the halt write. -/
theorem fatalTrapReachesHalted : Obligations.FatalTrapReachesHalted := by
  unfold Obligations.FatalTrapReachesHalted
  intro s sig rest r hwf hf hi ht hq hclear hstored hc record
  have h : Presented r s := presented_of_tick hwf hf hi ht hq hclear hstored
  have htier : tier (classOfCause r.cause) = .fatal := tier_fatal_of_mem _ hc
  have hrecord : textOf r s = record := textOf_fatal s htier
  have hpanic : (logged r s).fsm_state = .panicLog := textState_fatal htier
  obtain ⟨hstep1, hu1⟩ := h.undisturbed_logged.step_panicEnded hpanic (logged_diag_q r s)
  have hstep2 := hu1.step_haltWritten rfl
  rw [← hrecord]
  refine ⟨fun k hk => ?_, haltWritten (panicEnded (logged r s)), ?_, rfl, rfl, ?_, logged_uart_tx r s, rfl, rfl, rfl, rfl⟩
  · obtain hk | rfl : k ≤ 2 + (textOf r s).length ∨ k = 2 + (textOf r s).length + 1 := by omega
    · exact h.run_before_ne hk
    · exact ⟨panicEnded (logged r s), (h.run_logged 1).trans (core_run_next hstep1), nofun, nofun⟩
  · rw [show 4 + (textOf r s).length = 2 + (textOf r s).length + 2 by omega, h.run_logged, core_run_next hstep1,
      core_run_next hstep2]
    rfl
  · exact congrArg (· ++ [haltOp s.cfg]) (logged_bus r s)

/-! ## The endless re-trap -/

/-- IDLE with an uncleared SWI or EXT source whose request can be accepted, and no other input left. -/
structure Uncleared (r : TrapRequest) (s : State) : Prop where
  wf : instanceWf s.cfg = true
  idle : s.fsm_state = .idle
  inputs : s.inputs = []
  source : s.uncleared = some r
  cls : classOfCause r.cause ∈ [TrapClass.swi, .ext]
  clear : frameOverlapsDevice s.cfg r.frame = false
  stored : frameIsStored s.mem r.frame = true

theorem Uncleared.presented {r : TrapRequest} {s : State} (h : Uncleared r s) : Presented r s where
  wf := h.wf
  idle := h.idle
  fsm := by simp [fsmSteps, h.inputs]
  trap := by simp [signals, pendingSignals, h.inputs, h.idle, h.source]
  quiet := by rw [h.inputs]; rfl
  clear := h.clear
  stored := h.stored

theorem class_of_mem_two : ∀ c ∈ [TrapClass.swi, .ext],
    tier c = .recoverable ∧ logEndState c = .resume ∧ skips c = false := by decide

/-- The state after the resume handshake: the interrupt is taken again from here. -/
def retrapped (r : TrapRequest) (s : State) : State := endStep (goto .idle (logEnded r s))

theorem logEnded_inputs (r : TrapRequest) {s : State} (h : s.inputs = []) : (logEnded r s).inputs = [] := by
  simp [logEnded, logged, emitted, decoded, accepted, decodeFields, h]

section
variable {r : TrapRequest} {s : State} (h : Uncleared r s)
include h

/-- With the source uncleared the hart acknowledges the resume (70_reset R290). -/
theorem Uncleared.step_retrapped : step (logEnded r s) = .next (retrapped r s) := by
  obtain ⟨htier, hend, -⟩ := class_of_mem_two _ h.cls
  have hf : (logEnded r s).fsm_state = .resume := hend
  obtain ⟨-, hu⟩ := h.presented.step_logEnded htier
  obtain ⟨-, ht, -⟩ := signals_of_quiet hu.quiet (hf ▸ nofun)
  have hsource : (logEnded r s).uncleared = some r := h.source
  have hready : (signals (logEnded r s)).resume_ready = true := by
    simp [signals, pendingSignals, logEnded_inputs r h.inputs, hsource]
  exact hu.step (hf ▸ rfl) (hf ▸ nofun) (.resumed hf ht hready)

/-- One round, of 4 + d steps, comes back to where it began. -/
theorem Uncleared.again : Uncleared r (retrapped r s) where
  wf := h.wf
  idle := rfl
  inputs := by rw [retrapped, endStep_inputs, goto_inputs, logEnded_inputs r h.inputs]; rfl
  source := h.source
  cls := h.cls
  clear := h.clear
  stored := h.stored

theorem Uncleared.run_logEnded (k : Nat) :
    Sys2Proof.core.run (3 + (textOf r s).length + k) s = Sys2Proof.core.run k (logEnded r s) := by
  obtain ⟨htier, -⟩ := class_of_mem_two _ h.cls
  exact h.presented.run_logEnded htier k

theorem Uncleared.run_retrapped (k : Nat) :
    Sys2Proof.core.run (4 + (textOf r s).length + k) s = Sys2Proof.core.run k (retrapped r s) := by
  rw [show 4 + (textOf r s).length + k = 3 + (textOf r s).length + (k + 1) by omega, h.run_logEnded,
    core_run_next h.step_retrapped]

/-- Within a round no state is HALTED or UNDEF, and flags and source stay. -/
theorem Uncleared.run_round {n : Nat} (hn : n < 4 + (textOf r s).length) :
    ∃ t : State, Sys2Proof.core.run n s = .next t ∧ t.fsm_state ∈ [FsmState.idle, .decode, .log, .resume] ∧
      t.halted_q = s.halted_q ∧ t.undef_q = s.undef_q ∧ t.uncleared = some r := by
  obtain ⟨htier, hend, -⟩ := class_of_mem_two _ h.cls
  obtain hn | rfl : n ≤ 2 + (textOf r s).length ∨ n = 3 + (textOf r s).length + 0 := by omega
  · obtain ⟨u, hrun, hf, hhalted, hundef, hsource⟩ := h.presented.run_before n hn
    rw [textState_recoverable htier] at hf
    exact ⟨u, hrun, List.mem_append_left [FsmState.resume] hf, hhalted, hundef, hsource.trans h.source⟩
  · have hf : (logEnded r s).fsm_state = .resume := hend
    exact ⟨logEnded r s, h.run_logEnded 0, by simp [hf], rfl, rfl, h.source⟩

/-- A round ends with the resume of the interrupted address and IDLE. -/
theorem Uncleared.round_resumes : ∃ t u : State, Sys2Proof.core.run (3 + (textOf r s).length) s = .next t ∧
    t.fsm_state = .resume ∧ t.resume_q = r.epc ∧ Sys2Proof.core.run (3 + (textOf r s).length + 1) s = .next u ∧
    u.fsm_state = .idle := by
  obtain ⟨-, hend, hskip⟩ := class_of_mem_two _ h.cls
  exact ⟨logEnded r s, retrapped r s, h.run_logEnded 0, hend, logEndResume_keep hskip r.epc,
    (h.run_logEnded 1).trans (core_run_next h.step_retrapped), rfl⟩

end

/-- After any number of steps the trap is still under way, and it resumes again later: by the rounds already done. -/
theorem Uncleared.retraps {r : TrapRequest} (n : Nat) : ∀ {s : State}, Uncleared r s →
    (∃ t : State, Sys2Proof.core.run n s = .next t ∧ t.fsm_state ∈ [FsmState.idle, .decode, .log, .resume] ∧
      t.halted_q = s.halted_q ∧ t.undef_q = s.undef_q ∧ t.uncleared = some r) ∧
    ∃ k, n ≤ k ∧ ∃ t u : State, Sys2Proof.core.run k s = .next t ∧ t.fsm_state = .resume ∧ t.resume_q = r.epc ∧
      Sys2Proof.core.run (k + 1) s = .next u ∧ u.fsm_state = .idle := by
  induction n using Nat.strong_induction_on with
  | _ n ih =>
    intro s h
    by_cases hn : n < 4 + (textOf r s).length
    · exact ⟨h.run_round hn, _, Nat.le_of_lt_succ (by omega), h.round_resumes⟩
    · obtain ⟨m, rfl⟩ := Nat.exists_eq_add_of_le (Nat.not_lt.1 hn)
      obtain ⟨hround, k, hk, t, u, hrun, hresume, haddr, hnext, hidle⟩ := ih m (by omega) h.again
      refine ⟨by rwa [h.run_retrapped], 4 + (textOf r s).length + k, by omega, t, u, ?_, hresume, haddr, ?_, hidle⟩
      · rw [h.run_retrapped, hrun]
      · rw [Nat.add_assoc, h.run_retrapped, hnext]

/-- Settles O57: a source is set by its own input alone, and an uncleared one goes round without end. -/
theorem unclearedInterruptRetrapsWithoutEnd : Obligations.UnclearedInterruptRetrapsWithoutEnd := by
  unfold Obligations.UnclearedInterruptRetrapsWithoutEnd
  refine ⟨fun s o rest hwf hi => ?_, fun s r hwf hf hi hsource hc hclear hstored n => ?_⟩
  · rw [step_wf hwf, takeInput, beginStep_inputs, hi]
    rfl
  · exact Uncleared.retraps n ⟨hwf, hf, hi, hsource, hc, hclear, hstored⟩

end Sys2Proof.Machine
end
